-- ==== Sys2Proof/Word.lean ====
section
/-! DEFINITION. The words of the PD3410: the widths the spec gives to the fields that are bits. -/
namespace Sys2Proof

/-- One byte of a service frame, an item or a trace unit (R193). -/
abbrev Byte := BitVec 8

/-- A slot value: the 48-bit count of the timebase (R178). -/
abbrev Slot := BitVec 48

/-- A bank number, 0 to 15 (R2). -/
abbrev BankNo := BitVec 4

/-- A row as received, 17 bits (R2). -/
abbrev Row := BitVec 17

/-- A column as received, 11 bits (R2). -/
abbrev Col := BitVec 11

/-- The 64 data bits of a beat; lane `n` carries bits `8n` to `8n + 7` (R88). -/
abbrev BeatData := BitVec 64

/-- A set of the eight byte lanes; on a mask, 1 means "this byte is not written" (R193). -/
abbrev LaneSet := BitVec 8

/-- A set of windows 0 to 15 (R193). -/
abbrev WindowSet := BitVec 16

/-- A set of protocol rules 0 to 21 (R193). -/
abbrev RuleSet := BitVec 22

/-- A set of the ten alert causes of 11.3 (R193). -/
abbrev CauseSet := BitVec 10

/-- A cue pin, 0 to 3. -/
abbrev PinNo := BitVec 2

/-- A stage of the sequencer, 0 to 7. -/
abbrev StageNo := BitVec 3

end Sys2Proof
end

