-- ==== Sys2Proof/Syntax.lean ====
section
/-! DEFINITION. The commands of the block: one constructor per row of spec/opcode_table.json. The
part has no instruction memory; a command is an arrival on the channel, an event of the part itself,
or a service request taking effect, and each is whole and indivisible. -/
namespace Sys2Proof

/-- The three map items of the CHANNEL group (R14). -/
inductive MapItem where
  | order
  | rowWidth
  | columnWidth
deriving DecidableEq, Repr

/-- What the service processor does on the port's pins: SSEL_N falls or rises, or SCLK makes one cycle, a
rising edge with the level of SDI and the falling edge after it (R182). -/
inductive Wire where
  | select
  | deselect
  | clock (sdi : Bool)
deriving DecidableEq, Repr

/-- What the part samples when PORST_N is released: C-side MRST in the first slot (R8), the levels of the cue pins
on the board in that slot (R176), and whether SSEL_N is low at the release (R192). -/
structure Sampled where
  mrst : Bool
  pins : BitVec 4
  select : Bool
deriving DecidableEq, Repr

/-- The commands. Fields are as received (R2); a value operand holds an item's value bytes as one
number, the first byte shifted in being its most significant (R193). -/
inductive Instr where
  -- arrivals on the C-side
  | openBank (bank : BankNo) (row : Row)
  | readBurst (bank : BankNo) (column : Col) (autoClose : Bool)
  | writeBurst (bank : BankNo) (column : Col) (autoClose : Bool)
  | closeBank (bank : BankNo)
  | closeAll
  | refresh
  | modeLoad (index : BitVec 2) (value : BitVec 16)
  | sleepEnter
  | sleepExit
  /-- `code` names the pattern on the command pins; the spec gives those pins no encoding. -/
  | undefinedEncoding (code : Nat)
  | forwardCommand
  -- reset lines
  | memoryResetAssertion
  | memoryResetRelease
  | powerOnResetAssert
  | powerOnResetRelease (sampled : Sampled)
  -- beats
  | writeBeatReceive (data0 : BeatData) (mask0 : LaneSet) (data1 : BeatData) (mask1 : LaneSet)
  /-- `cStrobe`: the C-side also drives its strobe in this slot (R12). -/
  | readBeatReceive (cStrobe : Bool) (data0 data1 : BeatData)
  | writeBeatForward
  | readBeatForward
  | voidSlotResolve
  -- events of the tracker and the shadow; `place` counts the tracker list from 0, oldest first
  | effectSlot (place : BitVec 3)
  | dataSlot (place : BitVec 3)
  | retireDone (place : BitVec 3)
  | autoCloseCompletion (bank : BankNo)
  -- events of the sequencer, of trace capture, of the cue pins and of the timebase
  | occurrenceTake
  | stageTimeout
  | arbiterPick
  | unitWrite
  | pulseEnd (pin : PinNo)
  | cueInputChange (pin : PinNo) (level : Bool)
  | slotAdvance
  | intervalEvent
  -- the service port
  | frameAborted (bytes : List Byte)
  | frameDiscardedWaiting
  | readItem (group index : Byte)
  | readStatus
  | readTrace
  | ack (causes : BitVec 16)
  | captureStart
  | captureStop
  | flush
  | arm
  | disarm
  | lockWindow (number : Byte)
  | clearCounts
  | clearViolations
  | timeClear
  | shadowForget
  | setPins (value : Byte)
  | softReset
  | unknownRequest (code : Byte)
  | writeAddressMap (item : MapItem) (value : Byte)
  | writeBlindPolicy (value : Byte)
  | writeRule (index : Byte) (value : BitVec 24)
  | writeWindow (index : Byte) (value : BitVec 280)
  | writeStage (index : Byte) (value : BitVec 160)
  | writeTraceSetting (index : Byte) (value : BitVec 16)
  | writeAlertEnables (value : BitVec 24)
  | writeCue (index : Byte) (value : BitVec 32)
  | writeTime (value : BitVec 56)
  | writeItem (group index : Byte) (value : List Byte)
deriving DecidableEq, Repr

end Sys2Proof
end

