-- ==== Sys2Proof/Decode.lean ====
section
/-! DEFINITION. The table's rows give no bits, so no word spells a command: the block has no
instruction decoder. -/
namespace Sys2Proof

/-- The command a word spells by the bits of spec/opcode_table.json: no row gives any. -/
def decodeTableWord (_nbits _w : Nat) : Option Instr := none

end Sys2Proof
end

