-- ==== Sys2Proof/Machine/Bits.lean ====
section
/-! DEFINITION. Bit fields, sets, slot arithmetic and byte order. -/
namespace Sys2Proof.Machine

/-! ### Sets as bit fields (R193) -/

/-- The set of the members below `k` that `f` accepts. -/
def setBelow (w : Nat) (f : Nat → Bool) : Nat → BitVec w
  | 0 => 0
  | k + 1 => setBelow w f k ||| (if f k then BitVec.twoPow w k else 0)

/-- The set of the members of a `w`-bit field that `f` accepts. -/
def setOf (w : Nat) (f : Nat → Bool) : BitVec w := setBelow w f w

/-- The members of a set, ascending. -/
def members {w : Nat} (s : BitVec w) : List (Fin w) := (List.finRange w).filter fun i => s.getLsbD i.val

/-- The lowest member of a set; `none` when it is empty. -/
def lowest {w : Nat} (s : BitVec w) : Option (Fin w) := (members s).head?

/-! ### Slot values (R178) -/

/-- The difference `b - a` of two slot values: the value congruent to it modulo 2^48 that lies from
-2^47 to 2^47 - 1 (R178). -/
def spacing (a b : Slot) : Int := (b - a).toInt

/-- Slot `a` lies before slot `b` (R178). -/
def slotBefore (a b : Slot) : Bool := 0 < spacing a b

/-- The later of two slots; the second when neither lies before the other. -/
def laterSlot (a b : Slot) : Slot := if slotBefore b a then a else b

/-- The latest of the stamps that are present (R69, R71). Where three or more are so far apart that "later" is
cyclic (2^47 slots or more, R178) the manual names none: they are then compared in the order of the list
(log entry 24). -/
def latestSlot (stamps : List (Option Slot)) : Option Slot :=
  stamps.foldl (fun acc x =>
    match acc, x with
    | none, y => y
    | some a, none => some a
    | some a, some b => some (laterSlot a b)) none

/-- A slot value some slots later. -/
def slotPlus (a : Slot) (n : Nat) : Slot := a + BitVec.ofNat 48 n

/-! ### Byte order: the first byte is the most significant (R193) -/

/-- Byte `k` of a value of `w` bits, counted from the first byte shifted. -/
def byteAt {w : Nat} (v : BitVec w) (k : Nat) : Byte := v.extractLsb' (w - 8 * (k + 1)) 8

/-- The field of `bits` bits whose last byte is byte `last`. -/
def fieldTo {w : Nat} (v : BitVec w) (last bits : Nat) : BitVec bits :=
  v.extractLsb' (w - 8 * (last + 1)) bits

/-- A value as `count` bytes, most significant first. -/
def toBytes {w : Nat} (count : Nat) (v : BitVec w) : List Byte :=
  (List.range count).map fun k => v.extractLsb' (8 * (count - 1 - k)) 8

/-- A number as `count` bytes, most significant first. -/
def natBytes (count n : Nat) : List Byte := toBytes count (BitVec.ofNat (8 * count) n)

/-- The first `count` bytes of a list as one value. -/
def ofBytes (count : Nat) (l : List Byte) : BitVec (8 * count) :=
  (l.take count).foldl (fun acc b => (acc <<< 8) ||| b.setWidth (8 * count)) 0

/-- A list filled up with zero bytes to the length given. -/
def padTo (n : Nat) (l : List Byte) : List Byte := l ++ List.replicate (n - l.length) 0

/-- A bit as a byte, at the place given. -/
def bitAt (place : Nat) (b : Bool) : Byte := if b then BitVec.twoPow 8 place else 0

end Sys2Proof.Machine
end

