-- ==== Sys2Proof/Machine/Frame.lean ====
section
/-! DEFINITION. The frames of the service port: request codes and operand counts (R186, 11.1), item
groups and their value lengths (10.3, 11.2), when a frame holds a whole request (R183), and which request its
bytes are. -/
namespace Sys2Proof.Machine

/-- The number of operand bytes of a request code; `none` when the code is none of the seventeen.
WRITE ITEM (0x02) has two address bytes here; its value bytes are added by `requestComplete`. -/
def operandBytes (code : Byte) : Option Nat :=
  match code.toNat with
  | 0x01 => some 2
  | 0x02 => some 2
  | 0x03 => some 0
  | 0x04 => some 0
  | 0x05 => some 2
  | 0x10 => some 0
  | 0x11 => some 0
  | 0x12 => some 0
  | 0x18 => some 0
  | 0x19 => some 0
  | 0x20 => some 1
  | 0x28 => some 0
  | 0x29 => some 0
  | 0x30 => some 0
  | 0x38 => some 0
  | 0x40 => some 1
  | 0x5A => some 0
  | _ => none

/-- The group's value length in bytes; `none` when the code names no group (11.2). -/
def groupBytes (group : Byte) : Option Nat :=
  match group.toNat with
  | 0x01 => some 1
  | 0x02 => some 3
  | 0x03 => some 35
  | 0x04 => some 20
  | 0x05 => some 2
  | 0x06 => some 3
  | 0x07 => some 4
  | 0x08 => some 7
  | 0x10 => some 10
  | 0x11 => some 22
  | 0x12 => some 23
  | 0x13 => some 556
  | 0x14 => some 1
  | 0x15 => some 4
  | _ => none

/-- How many indices the group has (10.3). -/
def groupIndices (group : Byte) : Nat :=
  match group.toNat with
  | 0x01 => 4
  | 0x02 => 22
  | 0x03 => 16
  | 0x04 => 8
  | 0x05 => 7
  | 0x06 => 1
  | 0x07 => 4
  | 0x08 => 1
  | 0x10 => 1
  | 0x11 => 1
  | 0x12 => 1
  | 0x13 => 1
  | 0x14 => 1
  | 0x15 => 1
  | _ => 0

/-- The groups a WRITE ITEM may write: codes 0x01 to 0x08 (10.3). -/
def groupWritable (group : Byte) : Bool := 1 ≤ group.toNat && group.toNat ≤ 8

/-- The value bytes a WRITE ITEM carries: 0 for a read-only group or no group (R189). -/
def writeBytes (group : Byte) : Nat :=
  if groupWritable group then (groupBytes group).getD 0 else 0

/-- Whether the bytes received on SDI hold a complete request (R183, R187): an undefined code is
complete at its request byte. -/
def requestComplete : List Byte → Bool
  | [] => false
  | code :: operands =>
    match operandBytes code with
    | none => true
    | some k =>
      if code.toNat = 0x02 then
        match operands with
        | group :: _ :: value => writeBytes group ≤ value.length
        | _ => false
      else k ≤ operands.length

/-- The write that a WRITE ITEM of a group, an index and value bytes is (R189): the row of the group that the
index lies in, else the row WRITE_ITEM; value bytes beyond the group's are ignored (R182). -/
def writeOf (group index : Byte) (value : List Byte) : Instr :=
  let plain : Instr := .writeItem group index (value.take (writeBytes group))
  if groupIndices group ≤ index.toNat then plain
  else
    match group.toNat with
    | 0x01 =>
      match index.toNat with
      | 0 => .writeAddressMap .order (ofBytes 1 value)
      | 1 => .writeAddressMap .rowWidth (ofBytes 1 value)
      | 2 => .writeAddressMap .columnWidth (ofBytes 1 value)
      | _ => .writeBlindPolicy (ofBytes 1 value)
    | 0x02 => .writeRule index (ofBytes 3 value)
    | 0x03 => .writeWindow index (ofBytes 35 value)
    | 0x04 => .writeStage index (ofBytes 20 value)
    | 0x05 => .writeTraceSetting index (ofBytes 2 value)
    | 0x06 => .writeAlertEnables (ofBytes 3 value)
    | 0x07 => .writeCue index (ofBytes 4 value)
    | 0x08 => .writeTime (ofBytes 7 value)
    | _ => plain

/-- A request as the port spells it: a general write of enough value bytes is the write of its group's row
(R189, log entry 22); any other command is itself. -/
def requestForm : Instr → Instr
  | .writeItem group index value =>
    if writeBytes group ≤ value.length then writeOf group index value else .writeItem group index value
  | c => c

/-- The request that the bytes received on SDI are (11.1), as the command that takes it; `none` while it is not
complete. -/
def requestOf (bytes : List Byte) : Option Instr :=
  match requestComplete bytes, bytes with
  | false, _ => none
  | true, [] => none
  | true, code :: operands =>
    let operand (k : Nat) : Byte := operands.getD k 0
    some
      (match code.toNat with
       | 0x01 => .readItem (operand 0) (operand 1)
       | 0x02 => writeOf (operand 0) (operand 1) (operands.drop 2)
       | 0x03 => .readStatus
       | 0x04 => .readTrace
       | 0x05 => .ack (ofBytes 2 operands)
       | 0x10 => .captureStart
       | 0x11 => .captureStop
       | 0x12 => .flush
       | 0x18 => .arm
       | 0x19 => .disarm
       | 0x20 => .lockWindow (operand 0)
       | 0x28 => .clearCounts
       | 0x29 => .clearViolations
       | 0x30 => .timeClear
       | 0x38 => .shadowForget
       | 0x40 => .setPins (operand 0)
       | 0x5A => .softReset
       | _ => .unknownRequest code)

/-- The index of a map item in the CHANNEL group (11.2). -/
def mapItemIndex : MapItem → Byte
  | .order => 0
  | .rowWidth => 1
  | .columnWidth => 2

/-- The bytes that send a request (11.1); `none` for a command that is no request. -/
def requestBytes : Instr → Option (List Byte)
  | .readItem group index => some [0x01, group, index]
  | .writeAddressMap item value => some [0x02, 0x01, mapItemIndex item, value]
  | .writeBlindPolicy value => some [0x02, 0x01, 3, value]
  | .writeRule index value => some ([0x02, 0x02, index] ++ toBytes 3 value)
  | .writeWindow index value => some ([0x02, 0x03, index] ++ toBytes 35 value)
  | .writeStage index value => some ([0x02, 0x04, index] ++ toBytes 20 value)
  | .writeTraceSetting index value => some ([0x02, 0x05, index] ++ toBytes 2 value)
  | .writeAlertEnables value => some ([0x02, 0x06, 0] ++ toBytes 3 value)
  | .writeCue index value => some ([0x02, 0x07, index] ++ toBytes 4 value)
  | .writeTime value => some ([0x02, 0x08, 0] ++ toBytes 7 value)
  | .writeItem group index value => some ([0x02, group, index] ++ value)
  | .readStatus => some [0x03]
  | .readTrace => some [0x04]
  | .ack causes => some ([0x05] ++ toBytes 2 causes)
  | .captureStart => some [0x10]
  | .captureStop => some [0x11]
  | .flush => some [0x12]
  | .arm => some [0x18]
  | .disarm => some [0x19]
  | .lockWindow number => some [0x20, number]
  | .clearCounts => some [0x28]
  | .clearViolations => some [0x29]
  | .timeClear => some [0x30]
  | .shadowForget => some [0x38]
  | .setPins value => some [0x40, value]
  | .softReset => some [0x5A]
  | .unknownRequest code => some [code]
  | .openBank _ _ | .readBurst _ _ _ | .writeBurst _ _ _ | .closeBank _ | .closeAll | .refresh
  | .modeLoad _ _ | .sleepEnter | .sleepExit | .undefinedEncoding _ | .forwardCommand
  | .memoryResetAssertion | .memoryResetRelease | .powerOnResetAssert | .powerOnResetRelease _
  | .writeBeatReceive _ _ _ _ | .readBeatReceive _ _ _ | .writeBeatForward | .readBeatForward
  | .voidSlotResolve | .effectSlot _ | .dataSlot _ | .retireDone _ | .autoCloseCompletion _
  | .occurrenceTake | .stageTimeout | .arbiterPick | .unitWrite | .pulseEnd _
  | .cueInputChange _ _ | .slotAdvance | .intervalEvent | .frameAborted _
  | .frameDiscardedWaiting => none

end Sys2Proof.Machine
end

