-- ==== Sys2Proof/Config.lean ====
section
/-! DEFINITION. What the part fixes (capacities the spec gives) and the one family of free values. -/
namespace Sys2Proof.Config

/-- FREE VALUE, no body. Where one event hands over several lists of occurrences or records from
different blocks and the spec leaves their mutual order open (R81, R113, R128, R138, R151, R176),
the order is read from here: at place `k` of the merge numbered `n`, `true` takes the next element
of the first list. Log entry 3. -/
opaque freeOrder : Nat → Nat → Bool

/-- The tracker list holds at most 8 entries (R40). -/
def trackerPlaces : Nat := 8

/-- The rolling open list holds at most 8 stamps (R73). -/
def rollingPlaces : Nat := 8

/-- The occurrence queue holds at most 16 occurrences (R127). -/
def occurrencePlaces : Nat := 16

/-- The trace store holds 4096 units (R159). -/
def storeUnits : Nat := 4096

/-- A rule count stops at 255 (R81). -/
def countMax : Nat := 255

/-- A hit counter stops at 4294967295 (R98). -/
def hitMax : Nat := 4294967295

/-- A lost count stops at 65535 (R155). -/
def lostMax : Nat := 65535

/-- The part code and the revision of the IDENT item (11.2). -/
def identBytes : List (BitVec 8) := [0x34, 0x10, 0x00, 0x01]

end Sys2Proof.Config
end

