-- ==== Sys2Proof/Machine/Types.lean ====
section
/-! DEFINITION. The data the blocks of the PD3410 keep: one type for each kind of entry, record or
setting that a chapter of the spec describes. -/
namespace Sys2Proof.Machine

/-! ### The channel, the bank shadow and the mode shadow (chapters 1 and 2) -/

/-- The channel state (2.4). -/
inductive ChanState where
  | live
  | asleep
  | resetHeld
deriving DecidableEq, Repr

inductive AccessKind where
  | read
  | write
deriving DecidableEq, Repr

/-- The burst length L (R3). -/
inductive BurstLen where
  | four
  | eight
deriving DecidableEq, Repr

inductive BeatOrder where
  | linear
  | exchange
deriving DecidableEq, Repr

/-- The fields of mode word 0 when VALID (R3). -/
structure ModeWord0 where
  len : BurstLen
  order : BeatOrder
  readDelay : BitVec 4
deriving DecidableEq, Repr

/-- The fields of mode word 1 when VALID (R3). -/
structure ModeWord1 where
  writeDelay : BitVec 4
  postedDelay : BitVec 3
deriving DecidableEq, Repr

/-- The field of mode word 2 when VALID (R3). -/
structure ModeWord2 where
  maskOn : Bool
deriving DecidableEq, Repr

/-- The mode shadow (R29): `none` is INVALID, and an INVALID word carries no field values. -/
structure Modes where
  word0 : Option ModeWord0
  word1 : Option ModeWord1
  word2 : Option ModeWord2
deriving DecidableEq, Repr

/-- The state of a bank entry (R18). The row is carried exactly in OPEN and CLOSING, the auto-close
stamp exactly in CLOSING. -/
inductive BankState where
  | unknown
  | closed
  | opened (row : Row)
  | closing (row : Row) (autoClose : Slot)
deriving DecidableEq, Repr

/-- A bank shadow entry (R18). -/
structure Bank where
  state : BankState
  openStamp : Option Slot
  closeStamp : Option Slot
  lastReadEffect : Option Slot
  lastWriteEnd : Option Slot
deriving DecidableEq, Repr

/-- A command as the decoder hands it on (R2): the nine kinds, READ and WRITE under one form. -/
inductive Cmd where
  | openBank (bank : BankNo) (row : Row)
  | access (kind : AccessKind) (bank : BankNo) (column : Col) (autoClose : Bool)
  | closeBank (bank : BankNo)
  | closeAll
  | refresh
  | modeLoad (index : BitVec 2) (value : BitVec 16)
  | sleepEnter
  | sleepExit
deriving DecidableEq, Repr

/-- What the command pins of a slot carry: one of the nine kinds, or another pattern (R1, R9). -/
inductive ChannelWord where
  | command (c : Cmd)
  | undefinedCode (code : Nat)
deriving DecidableEq, Repr

inductive MapOrder where
  | brc
  | rbc
deriving DecidableEq, Repr

/-- The address map (R14): order, row width R, column width C. -/
structure AddrMap where
  order : MapOrder
  rowBits : Nat
  colBits : Nat
deriving DecidableEq, Repr

inductive BlindPolicy where
  | pass
  | block
deriving DecidableEq, Repr

/-! ### Forwarding (1.6) -/

/-- A write beat on the wire: data and the C-side mask. -/
structure WriteBeat where
  data : BeatData
  mask : LaneSet
deriving DecidableEq, Repr

/-- A received write beat with the guard lanes of its position (R50); empty for a stray beat. -/
structure HeldBeat where
  beat : WriteBeat
  guard : LaneSet
deriving DecidableEq, Repr

/-- The two write beats of a slot, and, when the tracker attributed them, the entry's number and
the position of the first. -/
structure HeldWrite where
  first : HeldBeat
  second : HeldBeat
  source : Option (Nat × Nat)
deriving DecidableEq, Repr

/-- What the part drives in one slot: the D-side command pins (`none` is idle), the D-side write
beats, the C-side read beats, and D-side MRST (`true` is asserted). -/
structure Outputs where
  command : Option ChannelWord
  writeBeats : Option (WriteBeat × WriteBeat)
  readBeats : Option (BeatData × BeatData)
  mrst : Bool
deriving DecidableEq, Repr

/-- The pass registers: what was received in this slot (`rx…`), what was received in the slot
before and is to be driven in this one (`tx…`), C-side MRST as last sampled, and the outputs of this
slot and of the slot that ended last. -/
structure Forwarding where
  rxCommand : Option ChannelWord
  txCommand : Option ChannelWord
  rxWrite : Option HeldWrite
  txWrite : Option HeldWrite
  rxRead : Option (BeatData × BeatData)
  txRead : Option (BeatData × BeatData)
  mrst : Bool
  pins : Outputs
  ended : Outputs
deriving DecidableEq, Repr

/-- Which of the things that happen at most once in a slot have happened in this one, how the slot
was reached, and whether it is the first after PORST_N release. -/
structure Turns where
  /-- the command pins were sampled with a command or another pattern (R1) -/
  command : Bool
  /-- MRST changed in this slot (R8) -/
  mrst : Bool
  /-- write beats were received: the C-side strobe was driven (R12) -/
  writeBeats : Bool
  /-- the D-side beats of this slot were taken or dropped (R12) -/
  readBeats : Bool
  /-- the sequencer had its take, or a stage was entered (R130) -/
  take : Bool
  /-- the interval selection was tested (R179) -/
  interval : Bool
  /-- the arbiter had its pick (R157) -/
  pick : Bool
  /-- the writer wrote its unit (R158) -/
  unit : Bool
  /-- the slot was reached by the counter's advance (R179, R180) -/
  byAdvance : Bool
  /-- the first slot after PORST_N release (R176) -/
  firstSlot : Bool
  /-- the cue pins whose level on the board was sampled anew (R174) -/
  pins : BitVec 4
  /-- a soft reset was taken (R126, R138) -/
  softReset : Bool
  /-- the READ entry that took this slot's D-side beats, with its satisfied set before them (R12) -/
  readTaken : Option (Nat × WindowSet)
deriving DecidableEq, Repr

/-! ### The burst tracker and the write guard (chapters 3 and 6) -/

inductive Phase where
  | posted
  | waiting
  | streaming
deriving DecidableEq, Repr

inductive RetireOutcome where
  | done
  | cut
  | abandoned
deriving DecidableEq, Repr

inductive UntrackedReason where
  | state
  | modeUnset
  | full
deriving DecidableEq, Repr

inductive BlindState where
  | none
  | pass
  | block
deriving DecidableEq, Repr

/-- An element of the captured beat list (R51); the C-side mask is held for a WRITE. -/
structure CapturedBeat where
  position : Nat
  column : Nat
  data : BeatData
  mask : Option LaneSet
deriving DecidableEq, Repr

/-- The guard account of a tracked WRITE (R103). `lockedSeen` says that a classified beat had a
non-empty locked share, which the report needs (R112). -/
structure Account where
  lockedShare : List LaneSet
  contributing : WindowSet
  blind : BlindState
  forced : Nat
  unprotected : Nat
  laneUnion : LaneSet
  firstPosition : Option Nat
  lockedSeen : Bool
deriving DecidableEq, Repr

/-- A tracker entry (R41). `number` is the model's name for the entry, given in arrival order;
`map` is the address map in force at its creation (R16); `satisfied` is the window table's satisfied
set (R96) and `account` the guard's account (R103). -/
structure Entry where
  number : Nat
  kind : AccessKind
  bank : BankNo
  row : Option Row
  column : Col
  len : BurstLen
  order : BeatOrder
  autoClose : Bool
  posted : Bool
  effectSlot : Slot
  dataSlot : Slot
  map : AddrMap
  phase : Phase
  beatsSeen : Nat
  candidates : WindowSet
  hits : WindowSet
  satisfied : WindowSet
  guard : List LaneSet
  doubtful : Bool
  rowless : Bool
  cutFlag : Bool
  captured : Option (List CapturedBeat)
  account : Option Account
deriving DecidableEq, Repr

/-! ### Protocol checking (chapter 4) -/

/-- One rule of the rule table (R63): `value2` is W of C12; sequence rules use neither value. -/
structure Rule where
  enabled : Bool
  value : Byte
  value2 : Byte
deriving DecidableEq, Repr

inductive MeasureKind where
  | refresh
  | modeLoad
  | sleepExit
deriving DecidableEq, Repr

/-- The first-violation record when filled (R82). The rule id is the lowest member of `rules`. -/
structure FirstViolation where
  cmd : Cmd
  chan : ChanState
  rules : RuleSet
  stamp : Slot
deriving DecidableEq, Repr

/-- The checker's own state (4.3, 4.4, 4.6). -/
structure Checker where
  rules : Vector Rule 22
  counts : Vector Nat 22
  first : Option FirstViolation
  rolling : List Slot
  readEnd : Option Slot
  measure : Option (MeasureKind × Slot)
deriving DecidableEq, Repr

/-! ### Watch windows (chapter 5) -/

inductive WindowKinds where
  | read
  | write
  | both
deriving DecidableEq, Repr

inductive CondWidth where
  | w8
  | w16
  | w32
  | w64
deriving DecidableEq, Repr

inductive CondKind where
  | any
  | zero
  | nonzero
  | topSet
  | topClear
  | allOnes
  | notAllOnes
  | maskedEqual
deriving DecidableEq, Repr

structure WindowActions where
  count : Bool
  capture : Bool
  captureData : Bool
  cue : Bool
  seq : Bool
  guard : Bool
deriving DecidableEq, Repr

/-- The programmed fields of a window (R86, R90). -/
structure WindowFields where
  enable : Bool
  low : BitVec 35
  high : BitVec 35
  kinds : WindowKinds
  cond : Option (CondWidth × CondKind)
  condValue : BitVec 64
  condMask : BitVec 64
  actions : WindowActions
  cuePin : PinNo
  lanes : LaneSet
deriving DecidableEq, Repr

/-- A window: programmed fields, lock state, hit counter, revision mark (R86). -/
structure Window where
  fields : WindowFields
  locked : Bool
  hitCount : Nat
  revised : Bool
deriving DecidableEq, Repr

/-! ### The trigger sequencer (chapter 7) -/

inductive Edge where
  | rising
  | falling
deriving DecidableEq, Repr

/-- A term of a stage (R121); `level` stands in term B with AND-LEVEL (R120). -/
inductive Term where
  | windowHit (windows : WindowSet)
  | violation (rules : RuleSet)
  | guard
  | cueEdge (pin : PinNo) (edge : Edge)
  | interval
  | always
  | level (pin : PinNo) (high : Bool)
deriving DecidableEq, Repr

/-- An occurrence (R127). -/
inductive Occurrence where
  | windowHit (window : Fin 16)
  | violation (rules : RuleSet)
  | guardEvent
  | cueEdge (pin : PinNo) (edge : Edge)
  | interval
deriving DecidableEq, Repr

/-- What a stage takes: its entry occurrence (R131) or a queued one (R130). -/
inductive Taken where
  | entry
  | queued (o : Occurrence)
deriving DecidableEq, Repr

inductive Join where
  | none
  | andLevel
  | or
deriving DecidableEq, Repr

structure StageActions where
  startCapture : Bool
  stopCapture : Bool
  trigger : Bool
  cue : Bool
  alert : Bool
deriving DecidableEq, Repr

/-- A stage of the table (R120). -/
structure Stage where
  termA : Term
  join : Join
  termB : Term
  n : BitVec 16
  t : BitVec 24
  nextCondition : StageNo
  nextTimeout : StageNo
  condActions : StageActions
  condPin : PinNo
  timeoutActions : StageActions
  timeoutPin : PinNo
deriving DecidableEq, Repr

inductive SeqState where
  | idle
  | armed
  | triggered
deriving DecidableEq, Repr

/-- The sequencer's items (R119). -/
structure Sequencer where
  state : SeqState
  stage : StageNo
  count : Nat
  expiry : Option Slot
  entry : Bool
  queue : List Occurrence
  stages : Vector Stage 8
deriving DecidableEq, Repr

/-! ### Trace capture (chapter 8) -/

/-- An ACCESS record (R149, R150). `beats` holds each captured beat with the guard mask of its
position, when the record carries data. -/
structure AccessRec where
  kind : AccessKind
  bank : BankNo
  row : Option Row
  column : Col
  lenOrder : Option (BurstLen × BeatOrder)
  autoClose : Bool
  posted : Bool
  outcome : Option RetireOutcome
  doubtful : Bool
  rowless : Bool
  cutFlag : Bool
  untracked : Option UntrackedReason
  hits : WindowSet
  beatsSeen : Nat
  data : Bool
  beats : List (CapturedBeat × LaneSet)
  stamp : Slot
deriving DecidableEq, Repr

/-- A GUARD record (R112, R114). -/
structure GuardRec where
  window : Option (Fin 16)
  bank : BankNo
  row : Option Row
  column : Option Nat
  lanes : LaneSet
  forced : Nat
  unprotected : Nat
  unable : Bool
  blind : Bool
  blocked : Bool
  untracked : Bool
  locked : Bool
  stamp : Slot
deriving DecidableEq, Repr

inductive StageCause where
  | condition
  | timeout
  | arm
  | trigger
deriving DecidableEq, Repr

inductive ChannelEvent where
  | memresetOn
  | memresetOff
  | sleepEnter
  | sleepExit
  | forget
  | softReset
deriving DecidableEq, Repr

/-- The staging queues, which are also the sources of GAP records (R154, R156). -/
inductive QueueId where
  | access
  | event
  | marker
deriving DecidableEq, Repr

/-- A trace record (8.3); the units are formed from it by R194. -/
inductive Record where
  | access (r : AccessRec)
  | violation (rule : Fin 22) (cmd : Cmd) (stamp : Slot)
  | guard (r : GuardRec)
  | stage (source target : StageNo) (cause : StageCause) (stamp : Slot)
  | cue (pin : PinNo) (edge : Edge) (stamp : Slot)
  | channel (event : ChannelEvent) (stamp : Slot)
  | mark (stamp : Slot)
  | gap (source : QueueId) (lost : Nat) (stamp : Slot)
deriving DecidableEq, Repr

inductive CaptureState where
  | off
  | run
  | post
  | stopped
deriving DecidableEq, Repr

inductive StoreMode where
  | stop
  | wrap
deriving DecidableEq, Repr

inductive ArbiterMode where
  | fixed
  | rotating
deriving DecidableEq, Repr

structure ClassEnables where
  violation : Bool
  guard : Bool
  stage : Bool
  cue : Bool
  channel : Bool
deriving DecidableEq, Repr

/-- The TRACE group settings (R147). -/
structure TraceSettings where
  storeMode : StoreMode
  arbiterMode : ArbiterMode
  captureAll : Bool
  captureAllData : Bool
  classes : ClassEnables
  postFill : BitVec 12
  markers : Bool
deriving DecidableEq, Repr

/-- A staging queue, oldest record first, and its lost count (R154, R155). -/
structure Staging where
  records : List Record
  lost : Nat
deriving DecidableEq, Repr

/-- The record the writer has begun and the units of it already written (R158). -/
structure Writer where
  record : Record
  written : Nat
deriving DecidableEq, Repr

/-- Trace capture (R140, R154 to R161). `store` holds the complete records, oldest first; the fill
and the record count are computed from it (R159). -/
structure Capture where
  state : CaptureState
  postCounter : Nat
  full : Bool
  note : Option Slot
  settings : TraceSettings
  access : Staging
  event : Staging
  marker : Staging
  rotation : List QueueId
  store : List Record
  writer : Option Writer
  wrapped : Bool
deriving DecidableEq, Repr

/-! ### Alerts, cue pins, timebase and service port (chapters 9 and 10) -/

/-- The ten alert causes (R167). -/
inductive Cause where
  | violation
  | guardHit
  | guardLocked
  | guardUnable
  | traceFull
  | trigger
  | seqAlert
  | seqOverrun
  | captureGap
  | memreset
deriving DecidableEq, Repr

/-- The alert unit (R167, R168). -/
structure Alert where
  latches : CauseSet
  globalOn : Bool
  enables : CauseSet
deriving DecidableEq, Repr

inductive CueFunction where
  | port
  | seqCue
  | windowCue
  | alertMirror
deriving DecidableEq, Repr

/-- A cue pin's record (R173). `active` says that a pulse is being driven; in the slot in which
`remaining` reaches 0 it stays set until the end of the pulse is taken (R175). `board` is the level
of the pin on the board as last sampled (R174). -/
structure Cue where
  function : CueFunction
  out : Bool
  latch : Bool
  width : Byte
  remaining : Nat
  active : Bool
  lastLevel : Bool
  board : Bool
deriving DecidableEq, Repr

/-- The interval select (R179). -/
inductive IntervalSel where
  | p12
  | p16
  | p20
  | p24
deriving DecidableEq, Repr

/-- The status codes (R187). -/
inductive Status where
  | ok
  | busy
  | locked
  | range
  | empty
  | unknown
deriving DecidableEq, Repr

/-- A settled response: status and response data (R183). -/
structure Answer where
  status : Status
  data : List Byte
deriving DecidableEq, Repr

/-- How far the frame in progress is (R182): `idle` while SSEL_N is released; `ignored` for a frame whose
SSEL_N was low when PORST_N was released (R192); `request` with the bytes received while the request is not
complete; `turnaround` while the turnaround byte is shifted; `response` with the number of whole bytes shifted
since. -/
inductive FramePhase where
  | idle
  | ignored
  | request (bytes : List Byte)
  | turnaround
  | response (sent : Nat)
deriving DecidableEq, Repr

/-- What the frame in progress gets after its turnaround byte (R183, R184): filler bytes only, the answer of the
request that waits, or an answer already settled. -/
inductive Reply where
  | filler
  | due
  | settled (a : Answer)
deriving DecidableEq, Repr

/-- The service port: the frame in progress, the bits received of its incomplete byte, the complete request
that waits to take effect (R183, R184), and what the frame gets. -/
structure Port where
  frame : FramePhase
  bits : List Bool
  waiting : Option Instr
  reply : Reply
deriving DecidableEq, Repr

end Sys2Proof.Machine
end

