-- ==== Sys2Proof/Machine/Defaults.lean ====
section
/-! DEFINITION. The values the spec gives to settings and entries after a reset. -/
namespace Sys2Proof.Machine

/-- An entry without row and without stamps, in the state given (R32, R34 to R36). -/
def Bank.blank (state : BankState) : Bank :=
  { state := state, openStamp := none, closeStamp := none, lastReadEffect := none, lastWriteEnd := none }

/-- All three mode words INVALID (R29). -/
def Modes.invalid : Modes := { word0 := none, word1 := none, word2 := none }

/-- The default address map (R14). -/
def AddrMap.default : AddrMap := { order := .brc, rowBits := 16, colBits := 10 }

/-- The default values of the spacing rules, C12 as K and W (R63). -/
def ruleDefaultValues (n : Nat) : Byte × Byte :=
  match n with
  | 0 => (4, 0)
  | 1 => (2, 0)
  | 2 => (10, 0)
  | 3 => (4, 0)
  | 4 => (2, 0)
  | 5 => (4, 0)
  | 6 => (3, 0)
  | 7 => (1, 0)
  | 8 => (40, 0)
  | 9 => (4, 0)
  | 10 => (20, 0)
  | 11 => (4, 32)
  | _ => (0, 0)

/-- Rule `n` at its default: enabled, values of R63. -/
def Rule.default (n : Nat) : Rule :=
  { enabled := true, value := (ruleDefaultValues n).1, value2 := (ruleDefaultValues n).2 }

/-- The checker after a power-on or soft reset (R63, R67, R73, R81, R82). -/
def Checker.default : Checker :=
  { rules := Vector.ofFn fun n => Rule.default n.val
    counts := Vector.replicate 22 0
    first := none
    rolling := []
    readEnd := none
    measure := none }

/-- No action. -/
def WindowActions.none : WindowActions :=
  { count := false, capture := false, captureData := false, cue := false, seq := false, guard := false }

/-- The default window (R87). -/
def Window.default : Window :=
  { fields :=
      { enable := false, low := 0, high := 0, kinds := .both, cond := Option.none, condValue := 0
        condMask := 0, actions := WindowActions.none, cuePin := 0, lanes := 0xFF }
    locked := false
    hitCount := 0
    revised := false }

/-- No action. -/
def StageActions.none : StageActions :=
  { startCapture := false, stopCapture := false, trigger := false, cue := false, alert := false }

/-- The default stage (R120). -/
def Stage.default : Stage :=
  { termA := .always, join := .none, termB := .windowHit 0, n := 1, t := 0, nextCondition := 0
    nextTimeout := 0, condActions := StageActions.none, condPin := 0
    timeoutActions := StageActions.none, timeoutPin := 0 }

/-- The sequencer after a power-on or soft reset (R119, R120). -/
def Sequencer.default : Sequencer :=
  { state := .idle, stage := 0, count := 0, expiry := Option.none, entry := false, queue := []
    stages := Vector.replicate 8 Stage.default }

/-- The default TRACE settings (R147). -/
def TraceSettings.default : TraceSettings :=
  { storeMode := .stop, arbiterMode := .fixed, captureAll := false, captureAllData := false
    classes := { violation := false, guard := false, stage := false, cue := false, channel := false }
    postFill := 1024, markers := false }

/-- An empty staging queue with lost count 0. -/
def Staging.empty : Staging := { records := [], lost := 0 }

/-- The rotating order after a reset or a FLUSH: event, access, marker (R157). -/
def rotationStart : List QueueId := [.event, .access, .marker]

/-- Trace capture after a power-on reset (R140, R155, R157, R159, R161). -/
def Capture.default : Capture :=
  { state := .off, postCounter := 0, full := false, note := none, settings := TraceSettings.default
    access := Staging.empty, event := Staging.empty, marker := Staging.empty
    rotation := rotationStart, store := [], writer := none, wrapped := false }

/-- The alert unit after a power-on reset (R167, R168). -/
def Alert.default : Alert := { latches := 0, globalOn := true, enables := 0 }

/-- A cue pin after a power-on reset (R173), with its level on the board in the first slot, which is its last
level. -/
def Cue.default (board : Bool) : Cue :=
  { function := .port, out := false, latch := false, width := 4, remaining := 0, active := false
    lastLevel := board, board := board }

/-- Idle outputs with the given D-side MRST. -/
def Outputs.idle (mrst : Bool) : Outputs :=
  { command := none, writeBeats := none, readBeats := none, mrst := mrst }

/-- The forwarding path across a power-on reset: nothing held, D-side MRST asserted (R13). -/
def Forwarding.powerOn (mrst : Bool) : Forwarding :=
  { rxCommand := none, txCommand := none, rxWrite := none, txWrite := none, rxRead := none
    txRead := none, mrst := mrst, pins := Outputs.idle true, ended := Outputs.idle true }

/-- The turns of the first slot after PORST_N release. -/
def Turns.first : Turns :=
  { command := false, mrst := false, writeBeats := false, readBeats := false, take := false
    interval := false, pick := false, unit := false, byAdvance := false, firstSlot := true
    pins := 0, softReset := false, readTaken := none }

/-- The turns of a slot reached by advance. -/
def Turns.fresh : Turns := { Turns.first with byAdvance := true, firstSlot := false }

/-- The port ready for the next frame. -/
def Port.ready : Port := { frame := .idle, bits := [], waiting := none, reply := .filler }

/-- The port after a release of PORST_N that finds SSEL_N low (`select`) or released (R192). -/
def Port.released (select : Bool) : Port :=
  { Port.ready with frame := if select then .ignored else .idle }

end Sys2Proof.Machine
end

