-- ==== Sys2Proof/Machine/State.lean ====
section
/-! DEFINITION. The state of the PD3410, its state right after reset, and the reasons to stop. -/
namespace Sys2Proof.Machine

/-- The whole state. Every field is a piece of state the spec names, but for `turns` (which of the
once-per-slot things have happened in this slot), `waiting` (retired WRITE entries whose guard account
is still open, R111), `nextNumber` and `free` (the model's own counters), and what comes from outside: `wires`
(the events of the port's pins) and `pending` (the queue of commands). -/
structure State where
  /-- PORST_N is asserted -/
  porst : Bool
  /-- the slot counter (R178) -/
  now : Slot
  turns : Turns
  fwd : Forwarding
  map : AddrMap
  blind : BlindPolicy
  chan : ChanState
  banks : Vector Bank 16
  modes : Modes
  /-- the tracker list, oldest first (R40) -/
  tracker : List Entry
  /-- retired WRITE entries whose last attributed beat is not yet forwarded (R111) -/
  waiting : List Entry
  /-- the number the next entry gets -/
  nextNumber : Nat
  checker : Checker
  windows : Vector Window 16
  seq : Sequencer
  capture : Capture
  alert : Alert
  cues : Vector Cue 4
  interval : IntervalSel
  port : Port
  /-- the number of the next merge whose order is free (`Config.freeOrder`) -/
  free : Nat
  /-- what the service processor does on the port's pins in this slot and in those to come, one list a slot
  (log entry 12) -/
  wires : List (List Wire)
  /-- the commands that wait, first in, first out -/
  pending : List Instr
deriving DecidableEq, Repr

/-- The faults: none. The spec names no event at which the block stops. -/
inductive Fault where
deriving DecidableEq, Repr

/-- The refusals. -/
inductive Refusal where
  /-- Raised by `exec` for a row that has no meaning yet; no arm raises it. Safe: the model stops. -/
  | notModelled (mnemonic : String)
deriving DecidableEq, Repr

/-- The state that a power-on reset gives, while PORST_N is asserted (`porst = true`) or in the first
slot after its release (`porst = false`), with C-side MRST and the board's levels on the cue pins as sampled
in that slot and SSEL_N low or not at the release. The counters `nextNumber` and `free` start at 0. -/
def State.powerOn (porst mrst : Bool) (pins : BitVec 4) (select : Bool) : State :=
  { porst := porst
    now := 0
    turns := Turns.first
    fwd := Forwarding.powerOn mrst
    map := AddrMap.default
    blind := .pass
    chan := .live
    banks := Vector.replicate 16 (Bank.blank .unknown)
    modes := Modes.invalid
    tracker := []
    waiting := []
    nextNumber := 0
    checker := Checker.default
    windows := Vector.replicate 16 Window.default
    seq := Sequencer.default
    capture := Capture.default
    alert := Alert.default
    cues := Vector.ofFn fun p => Cue.default (pins.getLsbD p.val)
    interval := .p20
    port := Port.released select
    free := 0
    wires := []
    pending := [] }

/-- The machine right after reset: the first slot after PORST_N release, with C-side MRST sampled
released, the board holding every cue pin at 0 and SSEL_N released (log entry 1). -/
def State.reset : State := State.powerOn false false 0 false

end Sys2Proof.Machine
end

