-- ==== Sys2Proof/Machine/Ops.lean ====
section
/-! DEFINITION. The named operations over the fields of the state: accessors, latches, and what one
event offers to the sequencer and to trace capture. -/
namespace Sys2Proof.Machine

/-- What a command answers. -/
abbrev Out := Host.Outcome State Fault Refusal

/-- A command that reaches the part only while PORST_N is released (R13, R192); while it is asserted
nothing is sampled and nothing changes. -/
def State.whileUp (s : State) (f : State → State) : Out := .next (if s.porst then s else f s)

/-! ### Accessors -/

/-- Bank entry `b` (R18). -/
def State.bank (s : State) (b : BankNo) : Bank := s.banks[b.toNat]'b.isLt

/-- The state with bank entry `b` replaced. -/
def State.setBank (s : State) (b : BankNo) (e : Bank) : State :=
  { s with banks := s.banks.set b.toNat e b.isLt }

/-- Cue pin `p` (R173). -/
def State.cue (s : State) (p : PinNo) : Cue := s.cues[p.toNat]'p.isLt

/-- The state with cue pin `p` replaced. -/
def State.setCue (s : State) (p : PinNo) (c : Cue) : State :=
  { s with cues := s.cues.set p.toNat c p.isLt }

/-- Stage `n` of the table (R120). -/
def State.stageOf (s : State) (n : StageNo) : Stage := s.seq.stages[n.toNat]'n.isLt

/-- Rule `n` of the rule table (R63). -/
def State.rule (s : State) (n : Fin 22) : Rule := s.checker.rules[n]

/-- The row of an entry: present in OPEN and CLOSING (R18). -/
def Bank.row (b : Bank) : Option Row :=
  match b.state with
  | .unknown => none
  | .closed => none
  | .opened r => some r
  | .closing r _ => some r

/-- The entry is OPEN. -/
def Bank.isOpen (b : Bank) : Bool :=
  match b.state with
  | .opened _ => true
  | _ => false

/-- The entry is OPEN or CLOSING. -/
def Bank.holdsRow (b : Bank) : Bool := b.row.isSome

/-- The row an access takes: that of an OPEN entry (R23, R43). -/
def Bank.openRow (b : Bank) : Option Row :=
  match b.state with
  | .opened r => some r
  | _ => none

/-- The burst length in beats. -/
def BurstLen.beats : BurstLen → Nat
  | .four => 4
  | .eight => 8

/-- The slots a burst occupies, L/2 (R6). -/
def BurstLen.slots (l : BurstLen) : Nat := l.beats / 2

/-- Some window is LOCKED (R17, R104). -/
def State.anyLocked (s : State) : Bool := s.windows.toList.any fun w => w.locked

/-! ### Alert latches (R167) -/

/-- The bit of a cause in a cause set (11.3). -/
def Cause.bit : Cause → Nat
  | .violation => 0
  | .guardHit => 1
  | .guardLocked => 2
  | .guardUnable => 3
  | .traceFull => 4
  | .trigger => 5
  | .seqAlert => 6
  | .seqOverrun => 7
  | .captureGap => 8
  | .memreset => 9

/-- The set that holds one cause. -/
def Cause.set (c : Cause) : CauseSet := BitVec.twoPow 10 c.bit

/-- An event sets the latch of its cause, whether it was set or clear (R167). -/
def State.setLatch (s : State) (c : Cause) : State :=
  { s with alert := { s.alert with latches := s.alert.latches ||| c.set } }

/-- Set the latch when the condition holds. -/
def State.setLatchIf (s : State) (c : Cause) (b : Bool) : State := if b then s.setLatch c else s

/-! ### Tracker entries by number -/

/-- The entry with the number given, if it is in the tracker list. -/
def State.entry? (s : State) (number : Nat) : Option Entry :=
  s.tracker.find? fun e => e.number == number

/-- Change the entry with the number given. -/
def State.updateEntry (s : State) (number : Nat) (f : Entry → Entry) : State :=
  { s with tracker := s.tracker.map fun e => if e.number == number then f e else e }

/-- Remove the entry with the number given from the list. -/
def State.dropEntry (s : State) (number : Nat) : State :=
  { s with tracker := s.tracker.filter fun e => e.number != number }

/-! ### What one event offers

An event may offer occurrences to the sequencer and event records to trace capture from several
blocks. Each block's own order is fixed; between blocks the order is free (log entry 3). -/

/-- The occurrences and event records an event offers, each in the order it hands them over. -/
structure Offers where
  occurrences : List Occurrence
  records : List Record
deriving DecidableEq, Repr

def Offers.none : Offers := { occurrences := [], records := [] }

/-- A merge of two lists that keeps the order within each; where both have an element left, the free
order decides (`Config.freeOrder` at merge `n`, place `k`). The fuel is the number of elements. -/
def mergeFree {α : Type} (n : Nat) : Nat → Nat → List α → List α → List α
  | 0, _, xs, ys => xs ++ ys
  | fuel + 1, k, xs, ys =>
    match xs, ys with
    | [], ys => ys
    | xs, [] => xs
    | x :: xs', y :: ys' =>
      if Config.freeOrder n k then x :: mergeFree n fuel (k + 1) xs' (y :: ys')
      else y :: mergeFree n fuel (k + 1) (x :: xs') ys'

/-- The merge of two lists numbered `n`. -/
def merged {α : Type} (n : Nat) (xs ys : List α) : List α :=
  mergeFree n (xs.length + ys.length) 0 xs ys

/-- Join the offers of two blocks in one event, occurrences and records each in a free order. -/
def State.join (s : State) (a b : Offers) : State × Offers :=
  ({ s with free := s.free + 2 },
   { occurrences := merged s.free a.occurrences b.occurrences
     records := merged (s.free + 1) a.records b.records })

end Sys2Proof.Machine
end

