-- ==== Sys2Proof/Machine/Address.lean ====
section
/-! DEFINITION. Which bytes a burst touches (R7, R14 to R16), windows over them (R86, R94), and data
conditions (R88). -/
namespace Sys2Proof.Machine

/-- A burst with a row: what its flat addresses follow from (R16). -/
structure Burst where
  map : AddrMap
  bank : BankNo
  row : Row
  column : Col
  len : BurstLen
  order : BeatOrder
deriving DecidableEq, Repr

/-- The column beat `i` addresses (R7): the aligned block of L columns that holds the truncated start
column, taken from the start offset in the beat order. -/
def beatColumn (map : AddrMap) (len : BurstLen) (order : BeatOrder) (column : Col) (i : Nat) : Nat :=
  let c := column.toNat % 2 ^ map.colBits
  let start := c % len.beats
  let base := c - start
  base +
    match order with
    | .linear => (start + i) % len.beats
    | .exchange => start ^^^ i

/-- The composite index of a bank, truncated row and truncated column (R15). -/
def compositeIndex (map : AddrMap) (bank row column : Nat) : Nat :=
  match map.order with
  | .brc => bank * 2 ^ (map.rowBits + map.colBits) + row * 2 ^ map.colBits + column
  | .rbc => row * 2 ^ (4 + map.colBits) + bank * 2 ^ map.colBits + column

/-- The flat byte address of lane `n` of beat `i` (R15, R16). -/
def Burst.address (g : Burst) (i n : Nat) : Nat :=
  compositeIndex g.map g.bank.toNat (g.row.toNat % 2 ^ g.map.rowBits)
    (beatColumn g.map g.len g.order g.column i) * 8 + n

/-- The burst of an entry; absent when the entry is ROWLESS. -/
def Entry.burst (e : Entry) : Option Burst :=
  e.row.map fun r =>
    { map := e.map, bank := e.bank, row := r, column := e.column, len := e.len, order := e.order }

/-- The flat address lies between low and high, both inclusive (R16). -/
def WindowFields.inRange (w : WindowFields) (a : Nat) : Bool := w.low.toNat ≤ a && a ≤ w.high.toNat

/-- Some lane of beat `i` lies in the range (R94, R96). -/
def WindowFields.meetsBeat (w : WindowFields) (g : Burst) (i : Nat) : Bool :=
  (List.range 8).any fun n => w.inRange (g.address i n)

/-- The access kinds include the kind given (R94). -/
def WindowKinds.includes : WindowKinds → AccessKind → Bool
  | .both, _ => true
  | .read, .read => true
  | .write, .write => true
  | .read, .write => false
  | .write, .read => false

/-- The window is a candidate of a burst of the kind given (R94); a burst without a row has none. -/
def WindowFields.selects (w : WindowFields) (kind : AccessKind) (g : Option Burst) : Bool :=
  w.enable && w.kinds.includes kind &&
    match g with
    | none => false
    | some g => (List.range g.len.beats).any fun i => w.meetsBeat g i

/-- The candidate window set (R94, R101). -/
def candidatesOf (windows : Vector Window 16) (kind : AccessKind) (g : Option Burst) : WindowSet :=
  setOf 16 fun k =>
    match windows[k]? with
    | some w => w.fields.selects kind g
    | none => false

/-- The windows of a set that have a data condition. -/
def conditional (windows : Vector Window 16) : WindowSet :=
  setOf 16 fun k =>
    match windows[k]? with
    | some w => w.fields.cond.isSome
    | none => false

/-- The lanes a condition reads, as a count of bits from lane 0 upwards (R88). -/
def CondWidth.bits : CondWidth → Nat
  | .w8 => 8
  | .w16 => 16
  | .w32 => 32
  | .w64 => 64

/-- The 64-bit mask of the selected lanes. -/
def CondWidth.mask (w : CondWidth) : BitVec 64 := setOf 64 fun k => k < w.bits

/-- A beat's data satisfies the condition (R88). -/
def condHolds (width : CondWidth) (kind : CondKind) (value mask data : BitVec 64) : Bool :=
  let sel := data &&& width.mask
  match kind with
  | .any => true
  | .zero => sel == 0
  | .nonzero => sel != 0
  | .topSet => data.getLsbD (width.bits - 1)
  | .topClear => !data.getLsbD (width.bits - 1)
  | .allOnes => sel == width.mask
  | .notAllOnes => sel != width.mask
  | .maskedEqual => (sel &&& mask) == (value &&& mask &&& width.mask)

/-- The window's condition is present and the beat's data satisfies it. -/
def WindowFields.condSatisfied (w : WindowFields) (data : BeatData) : Bool :=
  match w.cond with
  | none => false
  | some (width, kind) => condHolds width kind w.condValue w.condMask data

/-- The candidate windows with a data condition that a beat attributed at position `i` satisfies
(R96). -/
def satisfiedBy (windows : Vector Window 16) (candidates : WindowSet) (g : Option Burst) (i : Nat)
    (data : BeatData) : WindowSet :=
  match g with
  | none => 0
  | some g =>
    setOf 16 fun k =>
      candidates.getLsbD k &&
        match windows[k]? with
        | some w => w.fields.meetsBeat g i && w.fields.condSatisfied data
        | none => false

end Sys2Proof.Machine
end

