-- ==== Sys2Proof/Machine/Operands.lean ====
section
/-! DEFINITION. Every operand form: the fields of a MODE LOAD value (R3, 11.4) and of the value bytes
of the writable items (11.2). `none` is a value out of range or an undefined code. -/
namespace Sys2Proof.Machine

/-! ### MODE LOAD values (R3, 11.4) -/

/-- Burst length code: 0 is 4 beats, 1 is 8 beats, 2 and 3 are out of range. -/
def burstLenOf (code : BitVec 2) : Option BurstLen :=
  match code.toNat with
  | 0 => some .four
  | 1 => some .eight
  | _ => none

def beatOrderOf (b : Bool) : BeatOrder := if b then .exchange else .linear

/-- Mode word 0 read from a MODE LOAD value: read delay 4 to 14. -/
def modeWord0Of (v : BitVec 16) : Option ModeWord0 :=
  match burstLenOf (v.extractLsb' 0 2) with
  | none => none
  | some len =>
    let rd := v.extractLsb' 4 4
    if 4 ≤ rd.toNat ∧ rd.toNat ≤ 14 then
      some { len := len, order := beatOrderOf (v.getLsbD 3), readDelay := rd }
    else none

/-- Mode word 1 read from a MODE LOAD value: write delay 3 to 13, posted delay 0 to 6. -/
def modeWord1Of (v : BitVec 16) : Option ModeWord1 :=
  let wd := v.extractLsb' 0 4
  let pd := v.extractLsb' 4 3
  if 3 ≤ wd.toNat ∧ wd.toNat ≤ 13 ∧ pd.toNat ≤ 6 then some { writeDelay := wd, postedDelay := pd }
  else none

/-- Mode word 2 read from a MODE LOAD value: both mask enable codes are in range. -/
def modeWord2Of (v : BitVec 16) : Option ModeWord2 := some { maskOn := v.getLsbD 0 }

/-- Whether a MODE LOAD loads a value in range into a word that exists (Q6, R79). -/
def modeLoadInRange (index : BitVec 2) (v : BitVec 16) : Bool :=
  match index.toNat with
  | 0 => (modeWord0Of v).isSome
  | 1 => (modeWord1Of v).isSome
  | 2 => (modeWord2Of v).isSome
  | _ => false

/-! ### One-bit codes -/

/-- A code byte that takes the codes 0 and 1 only. -/
def bitCode (b : Byte) : Option Bool :=
  match b.toNat with
  | 0 => some false
  | 1 => some true
  | _ => none

/-! ### RULE (11.2, R63, R64) -/

/-- Whether the values lie in the range of spacing rule `n` (R63); a sequence rule has no value. -/
def ruleInRange (n : Nat) (value value2 : Byte) : Bool :=
  let within (lo hi : Nat) : Bool := lo ≤ value.toNat && value.toNat ≤ hi
  match n with
  | 0 => within 1 15
  | 1 => within 1 15
  | 2 => within 1 63
  | 3 => within 1 15
  | 4 => within 1 15
  | 5 => within 1 15
  | 6 => within 1 15
  | 7 => within 0 7
  | 8 => within 8 255
  | 9 => within 1 15
  | 10 => within 1 255
  | 11 => within 2 8 && (8 ≤ value2.toNat && value2.toNat ≤ 255)
  | _ => true

/-- A RULE item written: the value part of a sequence rule is ignored, and byte 2 for C1 to C11. -/
def ruleOf (n : Nat) (v : BitVec 24) : Option Rule :=
  let value := if n ≤ 11 then byteAt v 1 else 0
  let value2 := if n = 11 then byteAt v 2 else 0
  if ruleInRange n value value2 then
    some { enabled := (byteAt v 0).getLsbD 0, value := value, value2 := value2 }
  else none

/-! ### WINDOW (11.2, R90) -/

def windowKindsOf (code : BitVec 2) : Option WindowKinds :=
  match code.toNat with
  | 1 => some .read
  | 2 => some .write
  | 3 => some .both
  | _ => none

def condWidthOf (code : BitVec 2) : CondWidth :=
  match code.toNat with
  | 0 => .w8
  | 1 => .w16
  | 2 => .w32
  | _ => .w64

def condKindOf (code : BitVec 4) : Option CondKind :=
  match code.toNat with
  | 0 => some .any
  | 1 => some .zero
  | 2 => some .nonzero
  | 3 => some .topSet
  | 4 => some .topClear
  | 5 => some .allOnes
  | 6 => some .notAllOnes
  | 7 => some .maskedEqual
  | _ => none

/-- The data condition byte: `some none` is an absent condition, `none` an undefined kind. -/
def condOf (b : Byte) : Option (Option (CondWidth × CondKind)) :=
  if b.getLsbD 7 then (condKindOf (b.extractLsb' 0 4)).map fun k => some (condWidthOf (b.extractLsb' 4 2), k)
  else some none

/-- The actions byte; CAPTURE-DATA stores CAPTURE as set as well (R89). -/
def windowActionsOf (b : Byte) : WindowActions :=
  { count := b.getLsbD 0, capture := b.getLsbD 1 || b.getLsbD 2, captureData := b.getLsbD 2
    cue := b.getLsbD 3, seq := b.getLsbD 4, guard := b.getLsbD 5 }

/-- The largest flat address, 2^35 - 1 (R86, R90). -/
def maxFlatAddress : Nat := 34359738367

/-- A WINDOW item written (R90); `none` is refused with RANGE. -/
def windowOf (v : BitVec 280) : Option WindowFields :=
  let low : BitVec 40 := fieldTo v 5 40
  let high : BitVec 40 := fieldTo v 10 40
  if low.toNat ≤ high.toNat ∧ low.toNat ≤ maxFlatAddress ∧ high.toNat ≤ maxFlatAddress then
    match windowKindsOf ((byteAt v 0).extractLsb' 1 2), condOf (byteAt v 11) with
    | some kinds, some cond =>
      some
        { enable := (byteAt v 0).getLsbD 0, low := low.setWidth 35, high := high.setWidth 35
          kinds := kinds, cond := cond, condValue := fieldTo v 19 64, condMask := fieldTo v 27 64
          actions := windowActionsOf (byteAt v 28), cuePin := (byteAt v 29).extractLsb' 0 2
          lanes := byteAt v 30 }
    | _, _ => none
  else none

/-! ### STAGE (11.2, R123) -/

/-- A term in its 4-byte form (11.2); `none` is an undefined code or a detail out of range. -/
def termOf (v : BitVec 32) : Option Term :=
  match (byteAt v 0).toNat with
  | 0 => if byteAt v 1 = 0 then some (.windowHit (fieldTo v 3 16)) else none
  | 1 => if (byteAt v 1).toNat < 64 then some (.violation (fieldTo v 3 22)) else none
  | 2 => some .guard
  | 3 => some (.cueEdge ((byteAt v 3).extractLsb' 0 2) (if (byteAt v 3).getLsbD 4 then .falling else .rising))
  | 4 => some .interval
  | 5 => some .always
  | 6 =>
    if (byteAt v 2).toNat ≤ 3 then
      (bitCode (byteAt v 3)).map fun high => .level ((byteAt v 2).extractLsb' 0 2) high
    else none
  | _ => none

def Term.isLevel : Term → Bool
  | .level _ _ => true
  | _ => false

def joinOf (b : Byte) : Option Join :=
  match b.toNat with
  | 0 => some .none
  | 1 => some .andLevel
  | 2 => some .or
  | _ => none

/-- Term B fits the join: a level with AND-LEVEL, an occurrence term with OR, any with NONE (R123). -/
def termFits (j : Join) (t : Term) : Bool :=
  match j with
  | .none => true
  | .andLevel => t.isLevel
  | .or => !t.isLevel

/-- An actions byte of a stage; bits 7 to 5 are RANGE if set. -/
def stageActionsOf (b : Byte) : Option StageActions :=
  if b.toNat < 32 then
    some { startCapture := b.getLsbD 0, stopCapture := b.getLsbD 1, trigger := b.getLsbD 2
           cue := b.getLsbD 3, alert := b.getLsbD 4 }
  else none

def stageNoOf (b : Byte) : Option StageNo := if b.toNat ≤ 7 then some (b.setWidth 3) else none

def pinNoOf (b : Byte) : Option PinNo := if b.toNat ≤ 3 then some (b.setWidth 2) else none

/-- A STAGE item written (R123); `none` is refused with RANGE. -/
def stageFrom (v : BitVec 160) : Option Stage := do
  let termA ← termOf (fieldTo v 3 32)
  let join ← joinOf (byteAt v 4)
  let termB ← termOf (fieldTo v 8 32)
  let nextCondition ← stageNoOf (byteAt v 14)
  let nextTimeout ← stageNoOf (byteAt v 15)
  let condActions ← stageActionsOf (byteAt v 16)
  let condPin ← pinNoOf (byteAt v 17)
  let timeoutActions ← stageActionsOf (byteAt v 18)
  let timeoutPin ← pinNoOf (byteAt v 19)
  let n : BitVec 16 := fieldTo v 10 16
  if n ≠ 0 ∧ termA.isLevel = false ∧ termFits join termB = true then
    some
      { termA := termA, join := join, termB := termB, n := n, t := fieldTo v 13 24
        nextCondition := nextCondition, nextTimeout := nextTimeout, condActions := condActions
        condPin := condPin, timeoutActions := timeoutActions, timeoutPin := timeoutPin }
  else none

/-! ### TRACE, ALERT, CUE, TIME (11.2) -/

/-- The class enables byte; bits 7 to 5 are RANGE if set. -/
def classesOf (b : Byte) : Option ClassEnables :=
  if b.toNat < 32 then
    some { violation := b.getLsbD 0, guard := b.getLsbD 1, stage := b.getLsbD 2
           cue := b.getLsbD 3, channel := b.getLsbD 4 }
  else none

/-- The post-fill value, 0 to 4095 (R147). -/
def postFillOf (v : BitVec 16) : Option (BitVec 12) :=
  if v.toNat ≤ 4095 then some (v.setWidth 12) else none

/-- The ALERT item written: global enable and cause enables; bits 15 to 10 of the set are RANGE if
set (R168). -/
def alertEnablesOf (v : BitVec 24) : Option (Bool × CauseSet) :=
  let set : BitVec 16 := fieldTo v 2 16
  if set.toNat < 1024 then (bitCode (byteAt v 0)).map fun g => (g, set.setWidth 10) else none

def cueFunctionOf (b : Byte) : Option CueFunction :=
  match b.toNat with
  | 0 => some .port
  | 1 => some .seqCue
  | 2 => some .windowCue
  | 3 => some .alertMirror
  | _ => none

/-- The four programmed fields of a CUE item: function, direction OUT, latch, pulse width (R173). -/
structure CueFields where
  function : CueFunction
  out : Bool
  latch : Bool
  width : Byte
deriving DecidableEq, Repr

/-- A CUE item written; a pulse width of 0 is refused with RANGE. -/
def cueOf (v : BitVec 32) : Option CueFields :=
  match cueFunctionOf (byteAt v 0), bitCode (byteAt v 1) with
  | some f, some out =>
    if byteAt v 3 = 0 then none
    else some { function := f, out := out, latch := (byteAt v 2).getLsbD 0, width := byteAt v 3 }
  | _, _ => none

def intervalOf (b : Byte) : Option IntervalSel :=
  match b.toNat with
  | 0 => some .p12
  | 1 => some .p16
  | 2 => some .p20
  | 3 => some .p24
  | _ => none

/-! ### CHANNEL (11.2, R14, R104) -/

def mapOrderOf (b : Byte) : Option MapOrder :=
  match b.toNat with
  | 0 => some .brc
  | 1 => some .rbc
  | _ => none

def rowBitsOf (b : Byte) : Option Nat := if 12 ≤ b.toNat ∧ b.toNat ≤ 17 then some b.toNat else none

def colBitsOf (b : Byte) : Option Nat := if 9 ≤ b.toNat ∧ b.toNat ≤ 11 then some b.toNat else none

def blindPolicyOf (b : Byte) : Option BlindPolicy :=
  match b.toNat with
  | 0 => some .pass
  | 1 => some .block
  | _ => none

/-- A map item written with a value in range changes that item of the map (R14, R17). -/
def mapWith (m : AddrMap) (item : MapItem) (value : Byte) : Option AddrMap :=
  match item with
  | .order => (mapOrderOf value).map fun o => { m with order := o }
  | .rowWidth => (rowBitsOf value).map fun r => { m with rowBits := r }
  | .columnWidth => (colBitsOf value).map fun c => { m with colBits := c }

end Sys2Proof.Machine
end

