-- ==== Sys2Proof/Machine/Flags.lean ====
section
/-! DEFINITION. The computed conditions: potency and ALERT_N (R169), pin levels (R174), the timing of
an access (R5, R6), and the 22 judgements of the protocol checker (R65 to R80). -/
namespace Sys2Proof.Machine

/-! ### Potency (R169) -/

/-- The potent causes: GUARD_LOCKED whenever its latch is set, any other cause when its latch is set,
its enable ON and the global enable ON (R169). -/
def Alert.potent (a : Alert) : CauseSet :=
  (a.latches &&& Cause.guardLocked.set) |||
    (if a.globalOn then a.latches &&& a.enables &&& ~~~Cause.guardLocked.set else 0)

/-- ALERT_N is asserted exactly while at least one cause is potent (R169). -/
def Alert.asserted (a : Alert) : Bool := a.potent != 0

/-! ### Pin levels (R174) -/

/-- The level of a cue pin, given whether ALERT_N is asserted (R174). -/
def Cue.level (alert : Bool) (c : Cue) : Bool :=
  match c.function with
  | .port => if c.out then c.latch else c.board
  | .seqCue => c.active
  | .windowCue => c.active
  | .alertMirror => alert

/-- The level of pin `p` as the sequencer and the edges see it. -/
def State.pinLevel (s : State) (p : PinNo) : Bool := (s.cue p).level s.alert.asserted

/-! ### Timing of an access (R5, R6) -/

/-- The four values an access copies from the mode shadow, and whether its posted delay is above 0. -/
structure Timing where
  effectSlot : Slot
  dataSlot : Slot
  len : BurstLen
  order : BeatOrder
  posted : Bool
deriving DecidableEq, Repr

/-- The timing of an access arriving now; absent when word 0 or word 1 is INVALID (R5). -/
def State.timing (s : State) (kind : AccessKind) : Option Timing :=
  match s.modes.word0, s.modes.word1 with
  | some m0, some m1 =>
    let effect := slotPlus s.now m1.postedDelay.toNat
    let delay := match kind with
      | .read => m0.readDelay.toNat
      | .write => m1.writeDelay.toNat
    some { effectSlot := effect, dataSlot := slotPlus effect delay, len := m0.len, order := m0.order
           posted := m1.postedDelay != 0 }
  | _, _ => none

/-- The slot of the last nominal beat, data slot + L/2 - 1 (R6). -/
def Timing.lastSlot (t : Timing) : Slot := slotPlus t.dataSlot (t.len.slots - 1)

/-- The slot after the last nominal beat, data slot + L/2 (R67). -/
def Timing.endSlot (t : Timing) : Slot := slotPlus t.dataSlot t.len.slots

/-! ### Spacing rules (4.4) -/

/-- The spacing from `a` to `b` is less than the value: a spacing rule is broken (R63). -/
def tooClose (a b : Slot) (value : Byte) : Bool := spacing a b < value.toNat

/-- As `tooClose`; a stamp that is absent is not judged (R66). -/
def tooCloseOpt (a : Option Slot) (b : Slot) (value : Byte) : Bool :=
  match a with
  | none => false
  | some a => tooClose a b value

/-- The latest open stamp of the entries other than `b` (R69). -/
def State.latestOtherOpen (s : State) (b : BankNo) : Option Slot :=
  latestSlot (((List.finRange 16).filter fun k => k.val != b.toNat).map fun k => s.banks[k].openStamp)

/-- The latest last write end stamp of all entries (R71). -/
def State.latestWriteEnd (s : State) : Option Slot :=
  latestSlot (s.banks.toList.map fun e => e.lastWriteEnd)

/-- C1 OPEN_TO_ACCESS (R68). -/
def breaksOpenToAccess (s : State) : Cmd → Bool
  | .access kind b _ _ =>
    match s.timing kind with
    | none => false
    | some t => (s.bank b).isOpen && tooCloseOpt (s.bank b).openStamp t.effectSlot (s.rule 0).value
  | _ => false

/-- C2 OPEN_TO_OPEN (R69). -/
def breaksOpenToOpen (s : State) : Cmd → Bool
  | .openBank b _ => tooCloseOpt (s.latestOtherOpen b) s.now (s.rule 1).value
  | _ => false

/-- A rule judged at a CLOSE for its bank, and at a CLOSE ALL for each bank, where the entry is OPEN or
CLOSING (R70). -/
def breaksAtClose (s : State) (judge : Bank → Bool) : Cmd → Bool
  | .closeBank b => (s.bank b).holdsRow && judge (s.bank b)
  | .closeAll => s.banks.toList.any fun e => e.holdsRow && judge e
  | _ => false

/-- C3 OPEN_TO_CLOSE (R70). -/
def breaksOpenToClose (s : State) (c : Cmd) : Bool :=
  breaksAtClose s (fun e => tooCloseOpt e.openStamp s.now (s.rule 2).value) c

/-- C4 CLOSE_TO_OPEN (R69). -/
def breaksCloseToOpen (s : State) : Cmd → Bool
  | .openBank b _ => tooCloseOpt (s.bank b).closeStamp s.now (s.rule 3).value
  | _ => false

/-- C5 READ_TO_CLOSE (R70). -/
def breaksReadToClose (s : State) (c : Cmd) : Bool :=
  breaksAtClose s (fun e => tooCloseOpt e.lastReadEffect s.now (s.rule 4).value) c

/-- C6 WRITE_RECOVERY (R70). -/
def breaksWriteRecovery (s : State) (c : Cmd) : Bool :=
  breaksAtClose s (fun e => tooCloseOpt e.lastWriteEnd s.now (s.rule 5).value) c

/-- C7 WRITE_TO_READ (R71). -/
def breaksWriteToRead (s : State) : Cmd → Bool
  | .access .read _ _ _ =>
    match s.timing .read with
    | none => false
    | some t => tooCloseOpt s.latestWriteEnd t.effectSlot (s.rule 6).value
  | _ => false

/-- C8 READ_TO_WRITE (R71). -/
def breaksReadToWrite (s : State) : Cmd → Bool
  | .access .write _ _ _ =>
    match s.timing .write with
    | none => false
    | some t => tooCloseOpt s.checker.readEnd t.dataSlot (s.rule 7).value
  | _ => false

/-- C9, C10, C11: the pending measure has the kind given and the arrival comes too soon (R72). -/
def breaksMeasure (s : State) (kind : MeasureKind) (rule : Fin 22) : Bool :=
  match s.checker.measure with
  | none => false
  | some (k, stamp) => k == kind && tooClose stamp s.now (s.rule rule).value

/-- The rolling open list after the removals of R74: stamps less than `a - W + 1` are gone. -/
def State.rollingKept (s : State) : List Slot :=
  s.checker.rolling.filter fun x =>
    !slotBefore x (s.now - BitVec.ofNat 48 (s.rule 11).value2.toNat + 1)

/-- C12 OPEN_WINDOW: after the removals the list holds K or more stamps (R74). -/
def breaksOpenWindow (s : State) : Cmd → Bool
  | .openBank _ _ => (s.rule 11).value.toNat ≤ s.rollingKept.length
  | _ => false

/-! ### Sequence rules (4.5) -/

/-- Q1 ACCESS_NOT_OPEN (R75): the entry is CLOSED or CLOSING. -/
def breaksAccessNotOpen (s : State) : Cmd → Bool
  | .access _ b _ _ =>
    match (s.bank b).state with
    | .unknown => false
    | .closed => true
    | .opened _ => false
    | .closing _ _ => true
  | _ => false

/-- Q2 OPEN_WHILE_OPEN (R75). -/
def breaksOpenWhileOpen (s : State) : Cmd → Bool
  | .openBank b _ => (s.bank b).holdsRow
  | _ => false

/-- Q3 ALL_CLOSED_REQUIRED (R76). -/
def breaksAllClosed (s : State) : Cmd → Bool
  | .refresh => s.banks.toList.any fun e => e.holdsRow
  | .modeLoad _ _ => s.banks.toList.any fun e => e.holdsRow
  | .sleepEnter => s.banks.toList.any fun e => e.holdsRow
  | _ => false

/-- The entry is POSTED. -/
def Entry.isPosted (e : Entry) : Bool := e.phase == .posted

/-- The POSTED entries a CLOSE, CLOSE ALL or OPEN reaches (R47, R77). -/
def reachesPosted (c : Cmd) (e : Entry) : Bool :=
  e.isPosted &&
    match c with
    | .closeBank b => e.bank == b
    | .openBank b _ => e.bank == b
    | .closeAll => true
    | _ => false

/-- Q4 POSTED_CLOSE (R77). -/
def breaksPostedClose (s : State) (c : Cmd) : Bool := s.tracker.any fun e => reachesPosted c e

/-- Two nominal data windows share a slot (R44): the later data slot comes within the burst whose data
slot is the earlier one. -/
def windowsOverlap (d : Slot) (len : BurstLen) (d' : Slot) (len' : BurstLen) : Bool :=
  spacing d d' < len.slots && spacing d' d < len'.slots

/-- The pair is a legal cut (R78). -/
def legalCut (kind : AccessKind) (dataSlot : Slot) (older : Entry) : Bool :=
  older.kind == kind && older.len == .eight && !older.autoClose &&
    dataSlot == slotPlus older.dataSlot 2

/-- Why an access arriving now is untracked (R42); `none` when an entry is created. -/
def State.untrackedReason (s : State) : Option UntrackedReason :=
  if s.chan ≠ .live then some .state
  else if s.modes.word0.isNone ∨ s.modes.word1.isNone then some .modeUnset
  else if Config.trackerPlaces ≤ s.tracker.length then some .full
  else none

/-- Q5 CUT_ILLEGAL (R44, R78): judged at a tracked access against the entries whose windows overlap. -/
def breaksCutIllegal (s : State) : Cmd → Bool
  | .access kind _ _ _ =>
    match s.untrackedReason, s.timing kind with
    | none, some t =>
      s.tracker.any fun e =>
        windowsOverlap t.dataSlot t.len e.dataSlot e.len && !legalCut kind t.dataSlot e
    | _, _ => false
  | _ => false

/-- Q6 MODE_VALUE (R79). -/
def breaksModeValue : Cmd → Bool
  | .modeLoad index value => !modeLoadInRange index value
  | _ => false

/-- Q7 MODE_BUSY (R79). -/
def breaksModeBusy (s : State) : Cmd → Bool
  | .modeLoad _ _ => !s.tracker.isEmpty
  | _ => false

/-- Q8 CMD_ASLEEP (R80): any command but SLEEP EXIT while ASLEEP, SLEEP EXIT while LIVE. -/
def breaksCmdAsleep (s : State) (c : Cmd) : Bool :=
  match s.chan with
  | .live => c == .sleepExit
  | .asleep => c != .sleepExit
  | .resetHeld => false

/-- Q9 CMD_IN_RESET (R80). -/
def breaksCmdInReset (s : State) : Bool := s.chan == .resetHeld

/-- Q10 SLEEP_BUSY (R79). -/
def breaksSleepBusy (s : State) : Cmd → Bool
  | .sleepEnter => !s.tracker.isEmpty
  | _ => false

/-! ### All 22 (R65, R66) -/

/-- Whether rule `n` is judged in the channel state found (R65). -/
def judgedIn (chan : ChanState) (n : Nat) : Bool :=
  match chan with
  | .live => true
  | .asleep => n == 19 || (8 ≤ n && n ≤ 10)
  | .resetHeld => n == 20 || (8 ≤ n && n ≤ 10)

/-- The condition of rule `n`, whatever its enable and the channel state. -/
def breaksRule (s : State) (c : Cmd) (n : Nat) : Bool :=
  match n with
  | 0 => breaksOpenToAccess s c
  | 1 => breaksOpenToOpen s c
  | 2 => breaksOpenToClose s c
  | 3 => breaksCloseToOpen s c
  | 4 => breaksReadToClose s c
  | 5 => breaksWriteRecovery s c
  | 6 => breaksWriteToRead s c
  | 7 => breaksReadToWrite s c
  | 8 => breaksMeasure s .refresh 8
  | 9 => breaksMeasure s .modeLoad 9
  | 10 => breaksMeasure s .sleepExit 10
  | 11 => breaksOpenWindow s c
  | 12 => breaksAccessNotOpen s c
  | 13 => breaksOpenWhileOpen s c
  | 14 => breaksAllClosed s c
  | 15 => breaksPostedClose s c
  | 16 => breaksCutIllegal s c
  | 17 => breaksModeValue c
  | 18 => breaksModeBusy s c
  | 19 => breaksCmdAsleep s c
  | 20 => breaksCmdInReset s
  | 21 => breaksSleepBusy s c
  | _ => false

/-- Whether the rule's enable is ON. -/
def State.ruleOn (s : State) (n : Nat) : Bool :=
  match s.checker.rules[n]? with
  | some r => r.enabled
  | none => false

/-- The set of rules the command breaks, judged against the state before it (R65, R66). -/
def brokenRules (s : State) (c : Cmd) : RuleSet :=
  setOf 22 fun n => s.ruleOn n && judgedIn s.chan n && breaksRule s c n

end Sys2Proof.Machine
end

