-- ==== Sys2Proof/Machine/Staging.lean ====
section
/-! DEFINITION. Trace capture: record lengths (R149), offers and losses (R151, R154, R155), GAP records
(R156), the capture state (R141 to R145), the arbiter and the writer (R157 to R161). -/
namespace Sys2Proof.Machine

/-! ### Record lengths and the store (R149, R159) -/

/-- The length of a record in units: an ACCESS record has a header, a mask unit for a WRITE that
carries at least one captured beat, and one data unit for every two beats; any other kind has 1
(R149, R194). -/
def Record.length : Record → Nat
  | .access r =>
    1 + (if r.kind = .write ∧ r.data = true ∧ r.beats ≠ [] then 1 else 0) + (r.beats.length + 1) / 2
  | _ => 1

/-- The fill: the sum of the unit lengths of the complete records (R159). -/
def fillOf (store : List Record) : Nat := (store.map Record.length).sum

/-- The units free for a new record (R159). -/
def freeUnits (store : List Record) : Nat := Config.storeUnits - fillOf store

/-- Capture is in RUN or POST. -/
def Capture.running (c : Capture) : Bool := c.state == .run || c.state == .post

/-! ### The three staging queues (R154) -/

/-- The places of a queue (R154). -/
def QueueId.places : QueueId → Nat
  | .access => 4
  | .event => 8
  | .marker => 1

def Capture.queue (c : Capture) : QueueId → Staging
  | .access => c.access
  | .event => c.event
  | .marker => c.marker

def Capture.setQueue (c : Capture) (q : QueueId) (x : Staging) : Capture :=
  match q with
  | .access => { c with access := x }
  | .event => { c with event := x }
  | .marker => { c with marker := x }

def State.setCapture (s : State) (c : Capture) : State := { s with capture := c }

/-- Raise a lost count, which stops at 65535 (R155). -/
def raiseLost (lost n : Nat) : Nat := min (lost + n) Config.lostMax

/-- An offer reaches a queue (R154, R155): appended in RUN or POST when a place is free; with no place
it is dropped and counted, and a count that leaves 0 sets CAPTURE_GAP; discarded in OFF or STOPPED. -/
def State.offer (s : State) (q : QueueId) (r : Record) : State :=
  let x := s.capture.queue q
  if s.capture.running = false then s
  else if x.records.length < q.places then
    s.setCapture (s.capture.setQueue q { x with records := x.records ++ [r] })
  else
    (s.setCapture (s.capture.setQueue q { x with lost := raiseLost x.lost 1 })).setLatchIf .captureGap
      (x.lost == 0)

/-- Whether the class of an event record is enabled (R151). -/
def ClassEnables.allows (c : ClassEnables) : Record → Bool
  | .violation _ _ _ => c.violation
  | .guard _ => c.guard
  | .stage _ _ _ _ => c.stage
  | .cue _ _ _ => c.cue
  | .channel _ _ => c.channel
  | .access _ => true
  | .mark _ => true
  | .gap _ _ _ => true

/-- An event record is offered to event staging, subject to its class enable, which is judged first
(R151). -/
def State.offerEvent (s : State) (r : Record) : State :=
  if s.capture.settings.classes.allows r then s.offer .event r else s

/-- Event records offered in the order given. -/
def State.offerEvents (s : State) (rs : List Record) : State := rs.foldl State.offerEvent s

/-- A GAP record enters its queue when capture runs, the lost count is not 0 and a place is free; the
count returns to 0 (R156). -/
def State.enterGap (s : State) (q : QueueId) : State :=
  let x := s.capture.queue q
  if s.capture.running ∧ x.lost ≠ 0 ∧ x.records.length < q.places then
    s.setCapture (s.capture.setQueue q { records := x.records ++ [.gap q x.lost s.now], lost := 0 })
  else s

/-! ### The capture state (R141 to R145, R152) -/

/-- The number a discarded record returns to its queue's lost count: that of a GAP record (R145). -/
def Record.returned : Record → Nat
  | .gap _ n _ => n
  | _ => 0

/-- A queue emptied by an entry into STOPPED: the numbers of its GAP records return to the lost count,
which stops at 65535 (R145). -/
def Staging.discard (x : Staging) : Staging :=
  { records := [], lost := x.records.foldl (fun n r => raiseLost n r.returned) x.lost }

/-- Every entry into STOPPED (R145): the staging queues are emptied, the writer is left to finish. -/
def Capture.enterStopped (c : Capture) : Capture :=
  { c with state := .stopped, access := c.access.discard, event := c.event.discard
           marker := c.marker.discard }

def State.enterStopped (s : State) : State := s.setCapture s.capture.enterStopped

/-- The soft-reset note is served at an entry into RUN: its CHANNEL record is offered and the note is
cleared (R152). -/
def State.serveNote (s : State) : State :=
  match s.capture.note with
  | none => s
  | some stamp =>
    let s' := s.offerEvent (.channel .softReset stamp)
    s'.setCapture { s'.capture with note := none }

/-- A start reaches the capture state (R141): from OFF or STOPPED it enters RUN, serves the note and
lets nonzero lost counts enter their queues. -/
def State.startCapture (s : State) : State :=
  if s.capture.running then s
  else
    ((((s.setCapture { s.capture with state := .run }).serveNote).enterGap .event).enterGap
      .access).enterGap .marker

/-- A stop reaches the capture state (R142). -/
def State.stopCapture (s : State) : State := if s.capture.running then s.enterStopped else s

/-- The trigger reaches the capture state (R143). -/
def State.triggerCapture (s : State) : State :=
  if s.capture.state = .run then
    if s.capture.settings.postFill = 0 then s.enterStopped
    else
      s.setCapture
        { s.capture with state := .post, postCounter := s.capture.settings.postFill.toNat }
  else s

/-! ### The writer (R144, R158) -/

/-- A unit was written in POST: the post counter falls by 1, and at 0 capture enters STOPPED (R144). -/
def Capture.countUnit (c : Capture) : Capture :=
  if c.state = .post then
    let c' := { c with postCounter := c.postCounter - 1 }
    if c.postCounter ≤ 1 then c'.enterStopped else c'
  else c

/-- The writer's unit: the last unit completes the record, which joins the store (R158). -/
def Capture.advanceWriter (c : Capture) : Capture :=
  match c.writer with
  | none => c
  | some w =>
    if w.record.length ≤ w.written + 1 then
      { c with writer := none, store := c.store ++ [w.record] }
    else { c with writer := some { w with written := w.written + 1 } }

/-- The writer writes one unit of the record in progress. -/
def State.writeUnit (s : State) : State :=
  if s.capture.writer.isNone then s
  else
    { s with
      capture := s.capture.advanceWriter.countUnit
      turns := { s.turns with unit := true } }

/-! ### The arbiter (R157, R160, R161) -/

/-- The order in which the arbiter looks at the queues (R157). -/
def Capture.pickOrder (c : Capture) : List QueueId :=
  match c.settings.arbiterMode with
  | .fixed => rotationStart
  | .rotating => c.rotation

/-- The queue just picked moves to the end of the rotating order; FIXED mode keeps the order. -/
def Capture.rotate (c : Capture) (q : QueueId) : Capture :=
  match c.settings.arbiterMode with
  | .fixed => c
  | .rotating => { c with rotation := c.rotation.filter (fun x => x != q) ++ [q] }

/-- The first queue in the order that holds a record. -/
def Capture.chosen (c : Capture) : Option QueueId :=
  c.pickOrder.find? fun q => !(c.queue q).records.isEmpty

/-- Discard the oldest complete records until `n` units are free (R161). -/
def discardOldest (n : Nat) : List Record → List Record
  | [] => []
  | r :: rest => if n ≤ freeUnits (r :: rest) then r :: rest else discardOldest n rest

/-- A STOP-mode store without space (R160): the record picked is discarded, capture enters STOPPED,
FULL and TRACE_FULL are set. A GAP record returns its number to its queue. -/
def State.stopFull (s : State) (q : QueueId) (r : Record) : State :=
  let x := s.capture.queue q
  let c := s.capture.setQueue q { x with lost := raiseLost x.lost r.returned }
  (s.setCapture { c.enterStopped with full := true }).setLatch .traceFull

/-- The writer begins a record with its space settled, and writes its first unit in the same event
(R158, log entry 10). -/
def State.beginRecord (s : State) (q : QueueId) (r : Record) : State :=
  let fits := discardOldest r.length s.capture.store
  let c :=
    { s.capture with
      store := fits
      wrapped := s.capture.wrapped || fits.length < s.capture.store.length
      writer := some { record := r, written := 0 } }
  ((s.setCapture c).enterGap q).writeUnit

/-- The arbiter's pick, when capture runs and the writer is free and has not written in this slot. -/
def State.pick (s : State) : State :=
  if s.capture.running ∧ s.capture.writer.isNone ∧ s.turns.unit = false then
    match s.capture.chosen with
    | none => s
    | some q =>
      match (s.capture.queue q).records with
      | [] => s
      | r :: rest =>
        let c := (s.capture.setQueue q { s.capture.queue q with records := rest }).rotate q
        let s' := s.setCapture c
        match s.capture.settings.storeMode with
        | .stop => if freeUnits c.store < r.length then s'.stopFull q r else s'.beginRecord q r
        | .wrap => s'.beginRecord q r
  else s

/-- The arbiter's turn in the slot: one pick at most, taken at this point of the slot's order. -/
def State.pickTurn (s : State) : State :=
  if s.turns.pick then s
  else
    let s' := s.pick
    { s' with turns := { s'.turns with pick := true } }

/-- The writer's turn in the slot: one unit at most. -/
def State.unitTurn (s : State) : State := if s.turns.unit then s else s.writeUnit

end Sys2Proof.Machine
end

