-- ==== Sys2Proof/Machine/Sequence.lean ====
section
/-! DEFINITION. The occurrence queue, stages and their actions (chapter 7), pulse requests (R175), and
handing over what an event offers. -/
namespace Sys2Proof.Machine

/-! ### Pulse requests (R175) -/

/-- A pulse request from a source reaches a pin: a pin of that source's function takes it, any other
discards it (R175). -/
def State.requestPulse (s : State) (source : CueFunction) (p : PinNo) : State :=
  let c := s.cue p
  if c.function = source then s.setCue p { c with remaining := c.width.toNat, active := true } else s

/-! ### Terms (R121, R127, R131) -/

/-- An occurrence meets a term (R121). No queued occurrence meets ALWAYS or a level. -/
def Term.metBy : Term → Occurrence → Bool
  | .windowHit set, .windowHit w => set.getLsbD w.val
  | .violation set, .violation rules => (set &&& rules) != 0
  | .guard, .guardEvent => true
  | .cueEdge p e, .cueEdge p' e' => p == p' && e == e'
  | .interval, .interval => true
  | _, _ => false

/-- What a stage takes meets a term: the entry occurrence meets ALWAYS and no other (R131). -/
def Term.meets (t : Term) : Taken → Bool
  | .entry => t == .always
  | .queued o => t.metBy o

/-- The stage has an ALWAYS term: term A, or term B under OR (R131). -/
def Stage.hasAlways (st : Stage) : Bool :=
  st.termA == .always || (st.join == .or && st.termB == .always)

/-- The occurrence meets a term of the stage; term B counts when the join is OR (R127). -/
def Stage.uses (st : Stage) (o : Occurrence) : Bool :=
  st.termA.metBy o || (st.join == .or && st.termB.metBy o)

/-- The condition of a stage (R122); `level` gives the pin levels in the slot of the take. -/
def Stage.satisfied (st : Stage) (level : PinNo → Bool) (x : Taken) : Bool :=
  match st.join with
  | .none => st.termA.meets x
  | .or => st.termA.meets x || st.termB.meets x
  | .andLevel =>
    st.termA.meets x &&
      match st.termB with
      | .level p high => level p == high
      | _ => false

/-! ### The queue (R127, R129) -/

def State.setSeq (s : State) (q : Sequencer) : State := { s with seq := q }

/-- An occurrence is offered (R127, R129): dropped in IDLE and TRIGGERED and when no stage uses it,
appended when the queue holds fewer than 16, else dropped with the SEQ_OVERRUN latch set. -/
def State.offerOccurrence (s : State) (o : Occurrence) : State :=
  if s.seq.state = .armed ∧ s.seq.stages.toList.any (fun st => st.uses o) = true then
    if s.seq.queue.length < Config.occurrencePlaces then
      s.setSeq { s.seq with queue := s.seq.queue ++ [o] }
    else s.setLatch .seqOverrun
  else s

/-- Occurrences offered in the order given. -/
def State.offerOccurrences (s : State) (os : List Occurrence) : State :=
  os.foldl State.offerOccurrence s

/-- What an event offers is handed to the sequencer and to event staging. The occurrences of one event are
appended without a break (R128, log entry 25). -/
def State.handOut (s : State) (o : Offers) : State :=
  (s.offerOccurrences o.occurrences).offerEvents o.records

/-! ### Stages (R124, R132, R135 to R137) -/

/-- A stage is entered (R124): count 0, timer loaded from its T, entry occurrence pending with an
ALWAYS term. It takes its first occurrence in the next slot (R130). -/
def State.enterStage (s : State) (n : StageNo) : State :=
  let st := s.stageOf n
  { s with
    seq :=
      { s.seq with
        state := .armed, stage := n, count := 0
        expiry := if st.t = 0 then none else some (slotPlus s.now st.t.toNat)
        entry := st.hasAlways }
    turns := { s.turns with take := true } }

/-- The sequencer enters TRIGGERED: the stage is kept, the rest is emptied, the latch is set (R136). -/
def State.enterTriggered (s : State) : State :=
  (s.setSeq
      { s.seq with state := .triggered, count := 0, expiry := none, entry := false, queue := [] }).setLatch
    .trigger

/-- The actions of a transition (R135): START-CAPTURE, trigger and STOP-CAPTURE in that order, one
pulse request, the SEQ_ALERT latch. -/
def State.runActions (s : State) (a : StageActions) (pin : PinNo) : State :=
  let s1 := if a.startCapture then s.startCapture else s
  let s2 := if a.trigger then s1.triggerCapture else s1
  let s3 := if a.stopCapture then s2.stopCapture else s2
  let s4 := if a.cue then s3.requestPulse .seqCue pin else s3
  s4.setLatchIf .seqAlert a.alert

/-- A transition of the stage in force (R132, R133, R136, R137): its actions run, then TRIGGERED or the
next stage is entered, and its STAGE record is offered. -/
def State.transition (s : State) (a : StageActions) (pin : PinNo) (next : StageNo) (cause : StageCause) :
    State :=
  let source := s.seq.stage
  let s1 := s.runActions a pin
  if a.trigger then s1.enterTriggered.offerEvent (.stage source source .trigger s.now)
  else (s1.enterStage next).offerEvent (.stage source next cause s.now)

/-- A taken occurrence is judged against the stage in force (R130, R132). -/
def State.judge (s : State) (x : Taken) : State :=
  let st := s.stageOf s.seq.stage
  if st.satisfied s.pinLevel x then
    let s' := s.setSeq { s.seq with count := s.seq.count + 1 }
    if st.n.toNat ≤ s'.seq.count then
      s'.transition st.condActions st.condPin st.nextCondition .condition
    else s'
  else s

/-- The take (R130, R131): the entry occurrence first, else the oldest queued occurrence. -/
def State.take (s : State) : State :=
  if s.seq.entry then (s.setSeq { s.seq with entry := false }).judge .entry
  else
    match s.seq.queue with
    | [] => s
    | o :: rest => (s.setSeq { s.seq with queue := rest }).judge (.queued o)

/-- The sequencer's turn in the slot: in ARMED, one take at most, taken at this point of the slot's
order (R130). -/
def State.takeTurn (s : State) : State :=
  if s.seq.state = .armed ∧ s.turns.take = false then
    let s' := s.take
    { s' with turns := { s'.turns with take := true } }
  else s

/-- The stage in force times out when its expiry slot has come (R133). -/
def State.timeout (s : State) : State :=
  if s.seq.state = .armed ∧ s.seq.expiry = some s.now then
    let st := s.stageOf s.seq.stage
    s.transition st.timeoutActions st.timeoutPin st.nextTimeout .timeout
  else s

end Sys2Proof.Machine
end

