-- ==== Sys2Proof/Machine/Guarding.lean ====
section
/-! DEFINITION. Window hits (R98), guard masks and accounts (R103 to R114), ACCESS records (R148 to
R150), and the hand-over of a retired entry (R53). -/
namespace Sys2Proof.Machine

/-! ### Hits (R98) -/

/-- A window of the table, by its index. -/
def State.window (s : State) (k : Fin 16) : Window := s.windows[k]

/-- The windows of a hit set with the property given, ascending. -/
def State.hitsWith (s : State) (hits : WindowSet) (p : WindowActions → Bool) : List (Fin 16) :=
  (members hits).filter fun k => p (s.window k).fields.actions

/-- A hit counter rises by 1 and stops at its maximum (R98). -/
def Window.countHit (w : Window) : Window := { w with hitCount := min (w.hitCount + 1) Config.hitMax }

/-- The hit counters of the windows of the set that have COUNT rise (R98). -/
def countHits (windows : Vector Window 16) (hits : WindowSet) : Vector Window 16 :=
  Vector.ofFn fun k =>
    if hits.getLsbD k.val && windows[k].fields.actions.count then windows[k].countHit else windows[k]

/-- The effects of hits on one access (R98): counters, pulse requests in ascending index, and one
occurrence for each window with SEQ, in ascending index. -/
def State.hitEffects (s : State) (hits : WindowSet) : State × List Occurrence :=
  let s1 := { s with windows := countHits s.windows hits }
  let s2 :=
    (s.hitsWith hits (·.cue)).foldl
      (fun t k => t.requestPulse .windowCue (s.window k).fields.cuePin) s1
  (s2, (s.hitsWith hits (·.seq)).map Occurrence.windowHit)

/-! ### Guard masks (R103, R105, R106) -/

/-- An active guard window: enabled, with GUARD, access kinds WRITE or BOTH (R103). -/
def WindowFields.activeGuard (w : WindowFields) : Bool :=
  w.enable && w.actions.guard && w.kinds.includes .write

/-- The lanes the window gives to nominal beat `i` (R105). -/
def WindowFields.guardLanes (w : WindowFields) (g : Burst) (i : Nat) : LaneSet :=
  if w.activeGuard then setOf 8 fun n => w.lanes.getLsbD n && w.inRange (g.address i n) else 0

/-- The lanes that the windows with the property give to nominal beat `i`. -/
def guardMask (windows : Vector Window 16) (p : Window → Bool) (g : Burst) (i : Nat) : LaneSet :=
  windows.toList.foldl (fun acc w => if p w then acc ||| w.fields.guardLanes g i else acc) 0

/-- The guard masks of the nominal beats (R105). -/
def guardMasks (windows : Vector Window 16) (g : Burst) : List LaneSet :=
  (List.range g.len.beats).map fun i => guardMask windows (fun _ => true) g i

/-- The locked shares of the nominal beats (R105). -/
def lockedShares (windows : Vector Window 16) (g : Burst) : List LaneSet :=
  (List.range g.len.beats).map fun i => guardMask windows (fun w => w.locked) g i

/-- The guard windows that gave at least one lane to at least one nominal beat (R105). -/
def contributors (windows : Vector Window 16) (g : Burst) : WindowSet :=
  setOf 16 fun k =>
    match windows[k]? with
    | some w => (List.range g.len.beats).any fun i => w.fields.guardLanes g i != 0
    | none => false

/-- Some active guard window exists (R106). -/
def State.anyActiveGuard (s : State) : Bool := s.windows.toList.any fun w => w.fields.activeGuard

/-- A new account (R105, R106). -/
def Account.start (lockedShare : List LaneSet) (contributing : WindowSet) (blind : BlindState) :
    Account :=
  { lockedShare := lockedShare, contributing := contributing, blind := blind, forced := 0
    unprotected := 0, laneUnion := 0, firstPosition := none, lockedSeen := false }

/-- The guard at the effect slot of a tracked WRITE (R105, R106): masks and account. -/
def State.guardEntry (s : State) (e : Entry) : Entry :=
  match e.burst with
  | some g =>
    { e with
      guard := guardMasks s.windows g
      account := some (Account.start (lockedShares s.windows g) (contributors s.windows g) .none) }
  | none =>
    let empty := List.replicate e.len.beats (0 : LaneSet)
    let masks (m : LaneSet) (b : BlindState) : Entry :=
      { e with guard := List.replicate e.len.beats m, account := some (Account.start empty 0 b) }
    if s.anyActiveGuard then
      match s.blind with
      | .pass => masks 0 .pass
      | .block => masks 0xFF .block
    else masks 0 .none

/-! ### Reports (R111 to R113) -/

/-- A report sets the guard latches and offers a GUARD record and a guard event (R113). -/
def State.report (s : State) (r : GuardRec) : State × Offers :=
  (((s.setLatchIf .guardHit (1 ≤ r.forced)).setLatchIf .guardLocked r.locked).setLatchIf .guardUnable
      (r.unable || r.blind),
   { occurrences := [.guardEvent], records := [.guard r] })

/-- The GUARD record of a tracked write (R112). -/
def guardRecord (e : Entry) (a : Account) : GuardRec :=
  { window := lowest a.contributing
    bank := e.bank
    row := e.row
    column := a.firstPosition.map fun i => beatColumn e.map e.len e.order e.column i
    lanes := a.laneUnion
    forced := a.forced
    unprotected := a.unprotected
    unable := 1 ≤ a.unprotected
    blind := a.blind != .none
    blocked := a.blind == .block
    untracked := false
    locked := a.lockedSeen
    stamp := e.effectSlot }

/-- Whether a closing account makes a report (R111). -/
def Account.reports (a : Account) : Bool := 1 ≤ a.forced || 1 ≤ a.unprotected || a.blind != .none

/-- The account of a retired entry closes (R111). -/
def State.closeAccount (s : State) (e : Entry) : State × Offers :=
  match e.account with
  | none => (s, Offers.none)
  | some a => if a.reports then s.report (guardRecord e a) else (s, Offers.none)

/-- A received beat of the entry has not been forwarded yet. -/
def Forwarding.holdsBeatOf (f : Forwarding) (number : Nat) : Bool :=
  let belongs (h : Option HeldWrite) : Bool :=
    match h with
    | some w => match w.source with
      | some (n, _) => n == number
      | none => false
    | none => false
  belongs f.rxWrite || belongs f.txWrite

/-- The retired entry reaches the guard: the account closes now, or waits for the last beat attributed
to the entry to be forwarded (R111). -/
def State.retireAccount (s : State) (e : Entry) : State × Offers :=
  if e.account.isSome && s.fwd.holdsBeatOf e.number then
    ({ s with waiting := s.waiting ++ [e] }, Offers.none)
  else s.closeAccount e

/-! ### ACCESS records (R148 to R150) -/

/-- Some window of the hit set has the action. -/
def State.anyHitHas (s : State) (hits : WindowSet) (p : WindowActions → Bool) : Bool :=
  !(s.hitsWith hits p).isEmpty

/-- The ACCESS record of a tracked entry (R148, R149). -/
def State.accessRecord (s : State) (e : Entry) (o : RetireOutcome) : Record :=
  let withData :=
    e.captured.isSome && (s.capture.settings.captureAllData || s.anyHitHas e.hits (·.captureData))
  .access
    { kind := e.kind, bank := e.bank, row := e.row, column := e.column
      lenOrder := some (e.len, e.order), autoClose := e.autoClose, posted := e.posted
      outcome := some o, doubtful := e.doubtful, rowless := e.rowless, cutFlag := e.cutFlag
      untracked := none, hits := e.hits, beatsSeen := e.beatsSeen, data := withData
      beats :=
        if withData then (e.captured.getD []).map fun b => (b, e.guard.getD b.position 0) else []
      stamp := e.effectSlot }

/-- An ACCESS record is offered when CAPTURE-ALL is on or a hit has CAPTURE (R148, R150). -/
def State.offerAccess (s : State) (hits : WindowSet) (r : Record) : State :=
  if s.capture.settings.captureAll || s.anyHitHas hits (·.capture) then s.offer .access r else s

/-! ### The hand-over (R53, R97) -/

/-- The candidate windows with a data condition that were satisfied: the hits decided at retirement
(R97). -/
def State.lateHits (s : State) (e : Entry) : WindowSet :=
  e.candidates &&& conditional s.windows &&& e.satisfied

/-- A retired entry, already removed from the list, is handed to the window table, to trace capture
and, for a WRITE, to the write guard (R53). -/
def State.handOver (s : State) (e : Entry) (o : RetireOutcome) : State × Offers :=
  let late := s.lateHits e
  let e' := { e with hits := e.hits ||| late }
  let (s1, occ) := s.hitEffects late
  let s2 := s1.offerAccess e'.hits (s1.accessRecord e' o)
  let (s3, off) := s2.retireAccount e'
  s3.join { occurrences := occ, records := [] } off

/-- Every entry is retired ABANDONED, oldest first, and handed over (R56 to R58). No rule orders the occurrences
and GUARD records of one entry against those of another: they are merged in a free order (log entry 3). -/
def State.abandonAll (s : State) : State × Offers :=
  s.tracker.foldl
    (fun (p : State × Offers) e =>
      let (s', off) := p.1.handOver e .abandoned
      s'.join p.2 off)
    ({ s with tracker := [] }, Offers.none)

/-! ### Untracked accesses (R45, R101, R114, R150) -/

/-- An untracked access as handed over at its arrival (R45). -/
structure Untracked where
  kind : AccessKind
  bank : BankNo
  column : Col
  autoClose : Bool
  reason : UntrackedReason
  row : Option Row
  lenOrder : Option (BurstLen × BeatOrder)
  posted : Bool
  stamp : Slot
deriving DecidableEq, Repr

/-- The burst of an untracked access, when it has a row and has L and order (R101). -/
def Untracked.burst (u : Untracked) (map : AddrMap) : Option Burst :=
  match u.row, u.lenOrder with
  | some r, some (len, order) =>
    some { map := map, bank := u.bank, row := r, column := u.column, len := len, order := order }
  | _, _ => none

/-- The hits of an untracked access: candidates without a data condition (R101). -/
def State.untrackedHits (s : State) (u : Untracked) : WindowSet :=
  candidatesOf s.windows u.kind (u.burst s.map) &&& ~~~conditional s.windows

/-- The ACCESS record of an untracked access (R150). -/
def untrackedRecord (u : Untracked) (hits : WindowSet) : Record :=
  .access
    { kind := u.kind, bank := u.bank, row := u.row, column := u.column, lenOrder := u.lenOrder
      autoClose := u.autoClose, posted := u.posted, outcome := none, doubtful := false
      rowless := u.row.isNone, cutFlag := false, untracked := some u.reason, hits := hits
      beatsSeen := 0, data := false, beats := [], stamp := u.stamp }

/-- The first beat of the list whose mask is not empty. -/
def firstGuarded (masks : List LaneSet) : Option Nat := masks.findIdx? fun m => m != 0

/-- The guard judges an untracked WRITE once, at its arrival (R114). -/
def State.judgeUntrackedWrite (s : State) (u : Untracked) : State × Offers :=
  match u.burst s.map with
  | some g =>
    let masks := guardMasks s.windows g
    match firstGuarded masks with
    | none => (s, Offers.none)
    | some i =>
      s.report
        { window := lowest (contributors s.windows g)
          bank := u.bank
          row := u.row
          column := some (beatColumn g.map g.len g.order g.column i)
          lanes := masks.foldl (· ||| ·) 0
          forced := 0
          unprotected := (masks.filter fun m => m != 0).length
          unable := true
          blind := true
          blocked := false
          untracked := true
          locked := (lockedShares s.windows g).any fun m => m != 0
          stamp := u.stamp }
  | none =>
    if s.anyActiveGuard then
      s.report
        { window := none, bank := u.bank, row := u.row, column := some u.column.toNat, lanes := 0
          forced := 0, unprotected := 0, unable := false, blind := true, blocked := false
          untracked := true, locked := false, stamp := u.stamp }
    else (s, Offers.none)

/-- An untracked access is handed to the window table, to trace capture and, for a WRITE, to the write
guard, at its arrival (R45). -/
def State.handUntracked (s : State) (u : Untracked) : State × Offers :=
  let hits := s.untrackedHits u
  let (s1, occ) := s.hitEffects hits
  let s2 := s1.offerAccess hits (untrackedRecord u hits)
  let (s3, off) :=
    match u.kind with
    | .write => s2.judgeUntrackedWrite u
    | .read => (s2, Offers.none)
  s3.join { occurrences := occ, records := [] } off

end Sys2Proof.Machine
end

