-- ==== Sys2Proof/Machine/Tracking.lean ====
section
/-! DEFINITION. The burst tracker's events: effect slot, bus and beats, retirement (chapter 3). -/
namespace Sys2Proof.Machine

/-! ### Effect slot (R46) -/

/-- Some window of the set has CAPTURE-DATA. -/
def State.anyCaptureData (s : State) (set : WindowSet) : Bool := s.anyHitHas set (·.captureData)

/-- The entry as the effect slot leaves it (R46, R94, R95, R105): candidates, immediate hits, guard
masks for a WRITE, the captured beat list decided. -/
def State.effectEntry (s : State) (e : Entry) : Entry :=
  let candidates := candidatesOf s.windows e.kind e.burst
  let immediate := candidates &&& ~~~conditional s.windows
  let guarded := match e.kind with
    | .write => s.guardEntry e
    | .read => e
  { guarded with
    phase := .waiting
    candidates := candidates
    hits := immediate
    satisfied := 0
    captured :=
      if s.anyCaptureData candidates || s.capture.settings.captureAllData then some [] else none }

/-- The effect slot of the entry is taken (R46): the hits it decides have their effects. -/
def State.takeEffect (s : State) (e : Entry) : State × Offers :=
  let e' := s.effectEntry e
  let (s', occ) := (s.updateEntry e.number fun _ => e').hitEffects e'.hits
  (s', { occurrences := occ, records := [] })

/-- An entry's effect slot is due: it is POSTED and its effect slot has come. -/
def State.effectDue (s : State) (e : Entry) : Bool := e.isPosted && e.effectSlot == s.now

/-- The effect slot of the entry with the number given, if it is due. -/
def State.effectStep (s : State) (number : Nat) : State :=
  match s.entry? number with
  | none => s
  | some e =>
    if s.effectDue e then
      let (s', off) := s.takeEffect e
      s'.handOut off
    else s

/-! ### The bus and its beats (R48, R50, R51) -/

/-- The entry is STREAMING. -/
def Entry.isStreaming (e : Entry) : Bool := e.phase == .streaming

/-- How many slots lie between the entry's data slot and slot `t`, counted forward (R178). -/
def Entry.slotIndex (e : Entry) (t : Slot) : Nat := (t - e.dataSlot).toNat

/-- Slot `t` lies in the entry's nominal data window (R44). -/
def Entry.covers (e : Entry) (t : Slot) : Bool := e.slotIndex t < e.len.slots

/-- The entry that is STREAMING. -/
def State.streamer (s : State) : Option Entry := s.tracker.find? Entry.isStreaming

/-- The holder of slot `t`, the current slot or the one before (R48). -/
def State.holder (s : State) (t : Slot) : Option Entry :=
  match s.streamer with
  | some e => if e.covers t then some e else none
  | none => none

/-- The entry's two positions of slot `t` are not resolved yet (R50). -/
def Entry.unresolved (e : Entry) (t : Slot) : Bool := e.beatsSeen == 2 * e.slotIndex t

/-- The captured element of a beat at position `i` (R51). -/
def Entry.element (e : Entry) (i : Nat) (b : WriteBeat) : CapturedBeat :=
  { position := i, column := beatColumn e.map e.len e.order e.column i, data := b.data
    mask := match e.kind with
      | .write => some b.mask
      | .read => none }

/-- Elements are appended when the captured beat list is present (R51). -/
def Entry.append (e : Entry) (xs : List CapturedBeat) : Entry :=
  { e with captured := e.captured.map fun l => l ++ xs }

/-- Two beats are attributed at the entry's next two positions (R50, R51, R96). -/
def Entry.attribute (windows : Vector Window 16) (e : Entry) (b0 b1 : WriteBeat) : Entry :=
  let i := e.beatsSeen
  let sat := satisfiedBy windows e.candidates e.burst i b0.data |||
    satisfiedBy windows e.candidates e.burst (i + 1) b1.data
  { e.append [e.element i b0, e.element (i + 1) b1] with
    beatsSeen := i + 2
    satisfied := e.satisfied ||| sat }

/-- The beat a void position is captured as: data 0, every lane masked (R51). -/
def voidBeat : WriteBeat := { data := 0, mask := 0xFF }

/-- The entry's next two positions are void (R50): DOUBTFUL, no data. -/
def Entry.makeVoid (e : Entry) : Entry :=
  let i := e.beatsSeen
  { e.append [e.element i voidBeat, e.element (i + 1) voidBeat] with
    beatsSeen := i + 2
    doubtful := true }

/-- The holder of slot `t` of the kind given, with that slot unresolved. -/
def State.openHolder (s : State) (kind : AccessKind) (t : Slot) : Option Entry :=
  match s.holder t with
  | some e => if e.kind = kind ∧ e.unresolved t = true then some e else none
  | none => none

/-- The slot of the kind's holder that this slot resolves: the slot before for a READ, this slot for a
WRITE (R4, R50). -/
def State.resolvedSlot (s : State) : AccessKind → Slot
  | .read => s.now - 1
  | .write => s.now

/-- The void resolution of the holder of the kind given, if it is unresolved (R50). -/
def State.resolveVoid (s : State) (kind : AccessKind) : State :=
  match s.openHolder kind (s.resolvedSlot kind) with
  | none => s
  | some e => s.updateEntry e.number Entry.makeVoid

/-! ### Data slot and retirement (R49, R52) -/

/-- The entry's data slot is due: it is WAITING and its data slot has come. -/
def State.dataDue (s : State) (e : Entry) : Bool := e.phase == .waiting && e.dataSlot == s.now

/-- A READ that held the slot before still waits for the beats received in this slot, which it takes in
before it retires (R52). -/
def State.awaitsBeats (s : State) (e : Entry) : Bool :=
  e.kind == .read && e.covers (s.now - 1) && e.unresolved (s.now - 1)

/-- The entry takes the bus (R48), flagged CUT when it takes it from one still due (R49). -/
def State.takeBus (s : State) (number : Nat) (cut : Bool) : State :=
  s.updateEntry number fun e => { e with phase := .streaming, cutFlag := e.cutFlag || cut }

/-- An entry is removed from the list and handed over (R53). -/
def State.retire (s : State) (e : Entry) (o : RetireOutcome) : State :=
  let (s', off) := (s.dropEntry e.number).handOver e o
  s'.handOut off

/-- The data slot of the entry with the number given, if it is due (R48, R49). The event waits while an
older READ still awaits the beats of the slot before (R52, log entry 8). -/
def State.dataStep (s : State) (number : Nat) : State :=
  match s.entry? number with
  | none => s
  | some n =>
    if s.dataDue n then
      match s.streamer with
      | none => s.takeBus n.number false
      | some e =>
        if s.awaitsBeats e then s
        else if e.covers s.now = false then (s.takeBus n.number false).retire e .done
        else if e.dataSlot ≠ s.now then (s.takeBus n.number true).retire e .cut
        else if e.number < n.number then (s.takeBus n.number true).retire e .cut
        else (s.takeBus e.number true).retire n .cut
    else s

/-- The entry's retirement DONE is due: it has held all its nominal slots, this is the slot after, and
its last beats are in (R52). -/
def State.doneDue (s : State) (e : Entry) : Bool :=
  e.isStreaming && e.slotIndex s.now == e.len.slots && e.beatsSeen == e.len.beats

/-- The retirement DONE of the entry with the number given, if it is due. -/
def State.doneStep (s : State) (number : Nat) : State :=
  match s.entry? number with
  | none => s
  | some e => if s.doneDue e then s.retire e .done else s

/-- The numbers of the tracker's entries, oldest first. -/
def State.numbers (s : State) : List Nat := s.tracker.map Entry.number

/-- Every due effect slot, oldest entry first. -/
def State.allEffects (s : State) : State := s.numbers.foldl State.effectStep s

/-- Every due data slot, oldest entry first. -/
def State.allData (s : State) : State := s.numbers.foldl State.dataStep s

/-- Every due retirement, oldest entry first. -/
def State.allDone (s : State) : State := s.numbers.foldl State.doneStep s

/-! ### Receiving and forwarding beats (R10 to R12, R50, R108) -/

/-- The guard lanes the entry holds at a position. -/
def Entry.lanesAt (e : Entry) (i : Nat) : LaneSet := e.guard.getD i 0

/-- Write beats are received (R10, R50): they belong to the WRITE that holds the slot, or are stray;
received as they came, with the guard lanes of their positions. -/
def State.receiveWrite (s : State) (b0 b1 : WriteBeat) : State :=
  let hold (t : State) (h : HeldWrite) : State :=
    { t with
      fwd := { t.fwd with rxWrite := some h }
      turns := { t.turns with writeBeats := true } }
  match s.openHolder .write s.now with
  | none =>
    hold s
      { first := { beat := b0, guard := 0 }, second := { beat := b1, guard := 0 }, source := none }
  | some e =>
    hold (s.updateEntry e.number fun x => x.attribute s.windows b0 b1)
      { first := { beat := b0, guard := e.lanesAt e.beatsSeen }
        second := { beat := b1, guard := e.lanesAt (e.beatsSeen + 1) }
        source := some (e.number, e.beatsSeen) }

/-- Read beats are received and placed one slot earlier (R4, R50). -/
def State.receiveRead (s : State) (d0 d1 : BeatData) : State :=
  let holder := s.openHolder .read (s.now - 1)
  let t : State :=
    { s with
      fwd := { s.fwd with rxRead := some (d0, d1) }
      turns :=
        { s.turns with readBeats := true, readTaken := holder.map fun e => (e.number, e.satisfied) } }
  match holder with
  | none => t
  | some e =>
    t.updateEntry e.number fun x =>
      x.attribute s.windows { data := d0, mask := 0 } { data := d1, mask := 0 }

/-- The entry without the two beats it was given last; `satisfied` is its satisfied set before them, less the
windows rewritten since (R92). -/
def Entry.withoutBeats (satisfied : WindowSet) (e : Entry) : Entry :=
  { e with
    beatsSeen := e.beatsSeen - 2
    satisfied := satisfied &&& e.candidates
    captured := e.captured.map fun l => l.take (e.beatsSeen - 2) }

/-- The READ that took this slot's D-side beats has left the list with them: the slot's direction is fixed
(log entry 7). -/
def State.directionFixed (s : State) : Bool :=
  match s.turns.readTaken with
  | none => false
  | some (number, _) => (s.entry? number).isNone

/-- The D-side beats of a slot with a strobe on both sides are not forwarded and not passed to the tracker
(R12): what was done with them in this slot is undone. -/
def State.takeBack (s : State) : State :=
  let t : State :=
    { s with
      fwd := { s.fwd with rxRead := none }
      turns := { s.turns with readTaken := none } }
  match s.turns.readTaken with
  | none => t
  | some (number, satisfied) => t.updateEntry number (Entry.withoutBeats satisfied)

/-- Mode word 2 is VALID with mask enable ON (R11). -/
def State.maskingOn (s : State) : Bool :=
  match s.modes.word2 with
  | some m => m.maskOn
  | none => false

/-- The beat as driven on the D-side: lanes forced when masking is on (R11). -/
def HeldBeat.driven (h : HeldBeat) (on : Bool) : WriteBeat :=
  if on then { h.beat with mask := h.beat.mask ||| h.guard } else h.beat

/-- A forwarded beat at position `i` is classified into the account (R108). -/
def Account.classify (a : Account) (on : Bool) (i : Nat) (guard : LaneSet) : Account :=
  if guard = 0 then a
  else
    { a with
      forced := if on then a.forced + 1 else a.forced
      unprotected := if on then a.unprotected else a.unprotected + 1
      laneUnion := a.laneUnion ||| guard
      firstPosition := match a.firstPosition with
        | none => some i
        | some p => some p
      lockedSeen := a.lockedSeen || a.lockedShare.getD i 0 != 0 }

/-- The two beats of a slot are classified into the entry's account. -/
def Entry.classify (e : Entry) (on : Bool) (i : Nat) (g0 g1 : LaneSet) : Entry :=
  { e with account := e.account.map fun a => (a.classify on i g0).classify on (i + 1) g1 }

/-- A waiting account whose last beat is forwarded closes (R111). -/
def State.closeWaiting (s : State) (number : Nat) : State :=
  match s.waiting.find? fun e => e.number == number with
  | none => s
  | some e =>
    if s.fwd.holdsBeatOf number then s
    else
      let (s', off) :=
        State.closeAccount { s with waiting := s.waiting.filter fun x => x.number != number } e
      s'.handOut off

/-- The write beats received in the slot before are driven on the D-side and classified (R11, R108). -/
def State.forwardWrite (s : State) : State :=
  match s.fwd.txWrite with
  | none => s
  | some h =>
    let on := s.maskingOn
    let driven := some (h.first.driven on, h.second.driven on)
    let s1 : State :=
      { s with fwd := { s.fwd with txWrite := none, pins := { s.fwd.pins with writeBeats := driven } } }
    match h.source with
    | none => s1
    | some (number, i) =>
      let f (e : Entry) : Entry :=
        if e.number == number then e.classify on i h.first.guard h.second.guard else e
      State.closeWaiting { s1 with tracker := s1.tracker.map f, waiting := s1.waiting.map f } number

/-- The read beats received in the slot before are driven on the C-side (R9). -/
def State.forwardRead (s : State) : State :=
  match s.fwd.txRead with
  | none => s
  | some d =>
    { s with fwd := { s.fwd with txRead := none, pins := { s.fwd.pins with readBeats := some d } } }

/-- The command received in the slot before is driven on the D-side (R9). -/
def State.forwardCommand (s : State) : State :=
  match s.fwd.txCommand with
  | none => s
  | some w =>
    { s with fwd := { s.fwd with txCommand := none, pins := { s.fwd.pins with command := some w } } }

end Sys2Proof.Machine
end

