-- ==== Sys2Proof/Machine/Arrival.lean ====
section
/-! DEFINITION. A command's arrival: judgement and violation (chapter 4), the bank and mode shadow
(chapter 2), tracked and untracked accesses (3.2); and the channel's reset events (2.4). -/
namespace Sys2Proof.Machine

/-! ### The checker (4.3, 4.6) -/

def State.setChecker (s : State) (c : Checker) : State := { s with checker := c }

/-- The counts after a violation: the count of each rule in the set rises by 1 and stops at 255
(R81). -/
def raiseCounts (counts : Vector Nat 22) (rules : RuleSet) : Vector Nat 22 :=
  Vector.ofFn fun n =>
    if rules.getLsbD n.val then min (counts[n] + 1) Config.countMax else counts[n]

/-- The first-violation record after a violation: filled while it is empty (R82). -/
def firstAfter (s : State) (c : Cmd) (rules : RuleSet) : Option FirstViolation :=
  match s.checker.first with
  | some f => some f
  | none => some { cmd := c, chan := s.chan, rules := rules, stamp := s.now }

/-- What a command that breaks the rules of the set produces (R81 to R83): nothing when it is empty. -/
def State.violate (s : State) (c : Cmd) (rules : RuleSet) : State × Offers :=
  if rules = 0 then (s, Offers.none)
  else
    ((s.setChecker
        { s.checker with
          counts := raiseCounts s.checker.counts rules
          first := firstAfter s c rules }).setLatch .violation,
     { occurrences := [.violation rules]
       records := (members rules).map fun n => .violation n c s.now })

/-- The read data end stamp after a command (R67): a READ taken in LIVE with its timing known sets it to
the later of the held and the new value. Where the two lie exactly 2^47 slots apart neither is later (R178), and the
new value is kept (DESIGN CHOICE, log entry 24). -/
def readEndAfter (s : State) (c : Cmd) : Option Slot :=
  match c, s.chan with
  | .access .read _ _ _, .live =>
    match s.timing .read, s.checker.readEnd with
    | none, held => held
    | some t, none => some t.endSlot
    | some t, some held => some (laterSlot held t.endSlot)
  | _, _ => s.checker.readEnd

/-- The pending measure after a command (R72). -/
def measureAfter (s : State) (c : Cmd) : Option (MeasureKind × Slot) :=
  match c, s.chan with
  | .refresh, .live => some (.refresh, s.now)
  | .modeLoad _ _, .live => some (.modeLoad, s.now)
  | .sleepExit, .asleep => some (.sleepExit, s.now)
  | _, _ => none

/-- A stamp appended to the rolling open list, whose oldest of 8 is removed first (R74). -/
def rollingAppend (l : List Slot) (a : Slot) : List Slot :=
  (if Config.rollingPlaces ≤ l.length then l.drop 1 else l) ++ [a]

/-- The rolling open list after a command (R73, R74). -/
def rollingAfter (s : State) (c : Cmd) : List Slot :=
  match c, s.chan with
  | .openBank _ _, .live => rollingAppend s.rollingKept s.now
  | _, _ => s.checker.rolling

/-- The checker updates its own state for the arrival of a command that found the state `before`
(R65). -/
def State.checkerTakes (s before : State) (c : Cmd) : State :=
  s.setChecker
    { s.checker with
      readEnd := readEndAfter before c
      measure := measureAfter before c
      rolling := rollingAfter before c }

/-! ### The bank and mode shadow (2.2, 2.3) -/

/-- A bank entry after an OPEN (R20). -/
def Bank.afterOpen (e : Bank) (row : Row) (now : Slot) : Bank :=
  { e with
    state := if e.holdsRow then .unknown else .opened row
    openStamp := some now }

/-- A bank entry after a CLOSE (R21). -/
def Bank.afterClose (e : Bank) (now : Slot) : Bank :=
  { e with state := .closed, closeStamp := some now }

/-- The stamps an access writes when its timing is known (R23). -/
def Bank.stamped (e : Bank) (kind : AccessKind) (t : Timing) : Bank :=
  match kind with
  | .read => { e with lastReadEffect := some t.effectSlot }
  | .write => { e with lastWriteEnd := some t.lastSlot }

/-- The auto-close stamp of an access (R24), from the values of C5 and C6. -/
def autoCloseStamp (kind : AccessKind) (t : Timing) (readToClose writeRecovery : Byte) : Slot :=
  match kind with
  | .read => slotPlus (slotPlus t.effectSlot t.len.slots) readToClose.toNat
  | .write => slotPlus t.lastSlot writeRecovery.toNat

/-- A bank entry after a READ or WRITE (R23, R24). -/
def Bank.afterAccess (e : Bank) (kind : AccessKind) (autoClose : Bool) (t : Option Timing)
    (readToClose writeRecovery : Byte) : Bank :=
  match t with
  | some t =>
    match e.state, autoClose with
    | .opened row, true =>
      { e.stamped kind t with state := .closing row (autoCloseStamp kind t readToClose writeRecovery) }
    | _, _ => e.stamped kind t
  | none =>
    match e.state, autoClose with
    | .opened _, true => { e with state := .unknown }
    | _, _ => e

/-- A bank entry when its auto-close completes (R25). -/
def Bank.afterCompletion (e : Bank) (now : Slot) : Bank :=
  { e with state := .closed, closeStamp := some now }

/-- The auto-close of the entry is due in this slot. -/
def Bank.completionDue (e : Bank) (now : Slot) : Bool :=
  match e.state with
  | .closing _ stamp => stamp == now
  | _ => false

/-- The auto-close completion of bank `b`, if it is due (R25). -/
def State.completeAutoClose (s : State) (b : BankNo) : State :=
  if (s.bank b).completionDue s.now then s.setBank b ((s.bank b).afterCompletion s.now) else s

/-- Every bank entry replaced by the function of it. -/
def State.mapBanks (s : State) (f : Bank → Bank) : State :=
  { s with banks := Vector.ofFn fun k => f s.banks[k] }

/-- A MODE LOAD acts on the mode shadow (R30). -/
def Modes.load (m : Modes) (index : BitVec 2) (value : BitVec 16) : Modes :=
  match index.toNat with
  | 0 => { m with word0 := modeWord0Of value }
  | 1 => { m with word1 := modeWord1Of value }
  | 2 => { m with word2 := modeWord2Of value }
  | _ => m

/-- The shadow applies a command taken in LIVE (R20 to R27, R30, R31). -/
def State.shadowLive (s : State) (c : Cmd) : State :=
  match c with
  | .openBank b r => s.setBank b ((s.bank b).afterOpen r s.now)
  | .access kind b _ ac =>
    s.setBank b ((s.bank b).afterAccess kind ac (s.timing kind) (s.rule 4).value (s.rule 5).value)
  | .closeBank b => s.setBank b ((s.bank b).afterClose s.now)
  | .closeAll => s.mapBanks fun e => e.afterClose s.now
  | .refresh => s
  | .modeLoad index value => { s with modes := s.modes.load index value }
  | .sleepEnter => { s with chan := .asleep }
  | .sleepExit => s

/-- The shadow takes a command in the channel state it finds (R19, R31, R32): in ASLEEP only SLEEP EXIT
acts, in RESET HELD nothing does. -/
def State.shadow (s : State) (c : Cmd) : State :=
  match s.chan with
  | .live => s.shadowLive c
  | .asleep =>
    match c with
    | .sleepExit => { s with chan := .live }
    | _ => s
  | .resetHeld => s

/-- The CHANNEL record of a sleep change (R38). -/
def sleepOffers (s : State) (c : Cmd) : Offers :=
  match c, s.chan with
  | .sleepEnter, .live => { occurrences := [], records := [.channel .sleepEnter s.now] }
  | .sleepExit, .asleep => { occurrences := [], records := [.channel .sleepExit s.now] }
  | _, _ => Offers.none

/-! ### The tracker at an arrival (3.2) -/

/-- The POSTED entries a CLOSE, CLOSE ALL or OPEN taken in LIVE reaches become DOUBTFUL (R47). -/
def State.markDoubtful (s : State) (c : Cmd) : State :=
  if s.chan = .live then
    { s with
      tracker := s.tracker.map fun e => if reachesPosted c e then { e with doubtful := true } else e }
  else s

/-- The entry a tracked access creates (R43). -/
def State.newEntry (s : State) (kind : AccessKind) (b : BankNo) (column : Col) (ac : Bool) (t : Timing) :
    Entry :=
  { number := s.nextNumber, kind := kind, bank := b, row := (s.bank b).openRow, column := column
    len := t.len, order := t.order, autoClose := ac, posted := t.posted
    effectSlot := t.effectSlot, dataSlot := t.dataSlot, map := s.map
    phase := .posted, beatsSeen := 0, candidates := 0, hits := 0, satisfied := 0, guard := []
    doubtful := false, rowless := (s.bank b).openRow.isNone, cutFlag := false, captured := none
    account := none }

/-- The untracked access of an arrival (R45). -/
def State.untrackedOf (s : State) (kind : AccessKind) (b : BankNo) (column : Col) (ac : Bool)
    (reason : UntrackedReason) : Untracked :=
  { kind := kind, bank := b, column := column, autoClose := ac, reason := reason
    row := if s.chan = .live then (s.bank b).openRow else none
    lenOrder := s.modes.word0.map fun m => (m.len, m.order)
    posted := match s.modes.word1 with
      | some m => m.postedDelay != 0
      | none => false
    stamp := s.now }

/-- A tracked access joins the list; with a posted delay of 0 its effect slot comes in the same event
(R43). -/
def State.joinList (s : State) (e : Entry) : State × Offers :=
  let s' : State := { s with tracker := s.tracker ++ [e], nextNumber := s.nextNumber + 1 }
  if e.posted then (s', Offers.none) else s'.takeEffect e

/-- The tracker at a command's arrival (R42 to R45). -/
def State.trackArrival (s : State) (c : Cmd) : State × Offers :=
  match c with
  | .access kind b column ac =>
    match s.untrackedReason, s.timing kind with
    | some reason, _ => s.handUntracked (s.untrackedOf kind b column ac reason)
    | none, some t => s.joinList (s.newEntry kind b column ac t)
    | none, none => (s, Offers.none)
  | _ => (s.markDoubtful c, Offers.none)

/-! ### An arrival (R1, R19, R65) -/

/-- A command is taken: judged against the state before it, then taken by the tracker and the shadow,
each against that same state. -/
def State.takeCommand (s : State) (c : Cmd) : State :=
  let rules := brokenRules s c
  let (s1, off1) := s.violate c rules
  let (s3, off2) := (s1.checkerTakes s c).trackArrival c
  let (s4, off3) := (s3.shadow c).join off1 off2
  let (s5, off) := s4.join off3 (sleepOffers s c)
  s5.handOut off

/-- The command pins of the slot are sampled with a word on them (R1): it is held for the D-side
(R9). -/
def State.sampleCommand (s : State) (w : ChannelWord) : State :=
  { s with
    fwd := { s.fwd with rxCommand := some w }
    turns := { s.turns with command := true } }

/-- A command arrives (R1): the pins are sampled once per slot, while PORST_N is released. -/
def State.arrive (s : State) (c : Cmd) : State :=
  if s.porst ∨ s.turns.command then s else (s.sampleCommand (.command c)).takeCommand c

/-! ### Memory reset, forget, soft reset (2.4) -/

/-- The checker's spacing state is made absent (R67, R73). -/
def Checker.forgetSpacing (c : Checker) : Checker :=
  { c with readEnd := none, measure := none, rolling := [] }

/-- A memory reset assertion (R32). -/
def State.assertReset (s : State) : State :=
  let s1 : State :=
    { s with
      chan := .resetHeld
      banks := Vector.replicate 16 (Bank.blank .closed)
      modes := Modes.invalid
      checker := s.checker.forgetSpacing
      fwd := { s.fwd with mrst := true }
      turns := { s.turns with mrst := true } }
  let (s2, off) := (s1.setLatch .memreset).abandonAll
  let (s3, off') := s2.join off { occurrences := [], records := [.channel .memresetOn s.now] }
  s3.handOut off'

/-- A memory reset release (R33). -/
def State.releaseReset (s : State) : State :=
  let s1 : State :=
    { s with
      chan := if s.chan = .resetHeld then .live else s.chan
      fwd := { s.fwd with mrst := false }
      turns := { s.turns with mrst := true } }
  s1.offerEvent (.channel .memresetOff s.now)

/-- A SHADOW FORGET (R36, R57). -/
def State.forgetShadow (s : State) : State :=
  let s1 : State :=
    { s with
      banks := Vector.replicate 16 (Bank.blank .unknown)
      modes := Modes.invalid
      checker := s.checker.forgetSpacing }
  let (s2, off) := s1.abandonAll
  let (s3, off') := s2.join off { occurrences := [], records := [.channel .forget s.now] }
  s3.handOut off'

/-- A window through a soft reset (R87): an UNLOCKED one takes the defaults, a LOCKED one is kept. -/
def Window.softReset (w : Window) : Window := if w.locked then w else Window.default

/-- A cue pin through a soft reset (R173): the programmed fields at their defaults, no pulse; the last
level and the board's level are no settings. -/
def Cue.softReset (c : Cue) : Cue :=
  { Cue.default c.board with lastLevel := c.lastLevel }

/-- A SOFT RESET (R191 and the rules it gathers). Forwarding, the address map, the blind policy, the
LOCKED windows, the GUARD_LOCKED latch and the timebase go on as they are. The level of MRST it takes is that
of the last MRST event taken (log entry 23). The turn `softReset` holds back an ARM of the same slot (R126). -/
def State.resetSoftly (s : State) : State :=
  { s with
    chan := if s.fwd.mrst then .resetHeld else .live
    banks := Vector.replicate 16 (Bank.blank .unknown)
    modes := Modes.invalid
    tracker := []
    waiting := []
    checker := Checker.default
    windows := Vector.ofFn fun k => s.windows[k].softReset
    seq := Sequencer.default
    capture := { Capture.default with note := some s.now }
    alert := { Alert.default with latches := s.alert.latches &&& Cause.guardLocked.set }
    cues := Vector.ofFn fun p => s.cues[p].softReset
    interval := .p20
    turns := { s.turns with softReset := true, readTaken := none } }

/-- A slot value moved with the timebase by a TIME CLEAR taken at `now` (R28, R61, R133, R180). -/
def movedSlot (now x : Slot) : Slot := x - now

/-- A bank entry through a TIME CLEAR (R28): the stamps are removed, the auto-close stamp is moved. -/
def Bank.timeClear (now : Slot) (e : Bank) : Bank :=
  Bank.blank
    (match e.state with
     | .closing row stamp => .closing row (movedSlot now stamp)
     | st => st)

/-- A tracker entry through a TIME CLEAR (R61). -/
def Entry.timeClear (now : Slot) (e : Entry) : Entry :=
  { e with effectSlot := movedSlot now e.effectSlot, dataSlot := movedSlot now e.dataSlot }

/-- A TIME CLEAR (R180): the slot has the value 0 from here on and is no longer reached by advance. The retired
entries whose account is still open move with the tracker's (R61, R103, R165). -/
def State.clearTime (s : State) : State :=
  { s with
    now := 0
    banks := Vector.ofFn fun k => s.banks[k].timeClear s.now
    tracker := s.tracker.map (Entry.timeClear s.now)
    waiting := s.waiting.map (Entry.timeClear s.now)
    checker := s.checker.forgetSpacing
    seq := { s.seq with expiry := s.seq.expiry.map (movedSlot s.now) }
    turns := { s.turns with byAdvance := false } }

end Sys2Proof.Machine
end

