-- ==== Sys2Proof/Machine/Slots.lean ====
section
/-! DEFINITION. Pulses and edges of the cue pins (R175, R176), interval events (R179), and the passing
of a slot (R178). -/
namespace Sys2Proof.Machine

/-! ### Pins: samples, pulses and edges (R174 to R176) -/

/-- The level of pin `p` on the board is sampled anew, once in a slot (R174). -/
def State.samplePin (s : State) (p : PinNo) (level : Bool) : State :=
  if s.turns.pins.getLsbD p.toNat then s
  else
    { s.setCue p { s.cue p with board := level } with
      turns := { s.turns with pins := s.turns.pins ||| BitVec.twoPow 4 p.toNat } }

/-- What the part drives on pin `p` (R174): nothing on a PORT IN pin, and nothing while PORST_N is
asserted. -/
def State.cueDrive (s : State) (p : PinNo) : Option Bool :=
  if s.porst ∨ (s.cue p).function = .port ∧ (s.cue p).out = false then none else some (s.pinLevel p)

/-- A pulse is at its end: its remaining slots have run out and the end is not taken yet (R175). -/
def Cue.endDue (c : Cue) : Bool := c.active && c.remaining == 0

/-- The end of the pulse on pin `p`, if it is due: the pin is driven 0 (R175). -/
def State.endPulse (s : State) (p : PinNo) : State :=
  if (s.cue p).endDue then s.setCue p { s.cue p with active := false } else s

/-- The four pins, ascending. -/
def allPins : List PinNo := [0, 1, 2, 3]

/-- Pulse remaining falls by 1 at the start of a slot (R175). -/
def Cue.tick (c : Cue) : Cue := { c with remaining := c.remaining - 1 }

/-- The edge of pin `p` against its last level (R176). -/
def State.edgeOf (s : State) (p : PinNo) : Option Edge :=
  match (s.cue p).lastLevel, s.pinLevel p with
  | false, true => some .rising
  | true, false => some .falling
  | _, _ => none

/-- What the edge of pin `p` offers: a cue-edge occurrence and a CUE record (R176). -/
def State.edgeOffers (s : State) (p : PinNo) : Offers :=
  match s.edgeOf p with
  | none => Offers.none
  | some e => { occurrences := [.cueEdge p e], records := [.cue p e s.now] }

/-- The last levels take the levels of the slot (R176). -/
def State.settleLevels (s : State) : State :=
  { s with
    cues := Vector.ofFn fun k => { s.cues[k] with lastLevel := s.cues[k].level s.alert.asserted } }

/-- After the events of a slot every pin's level is compared with its last level (R176); the edges of
several pins are offered in a free order. In the first slot after PORST_N release no edge is
taken. -/
def State.takeEdges (s : State) : State :=
  if s.turns.firstSlot then s.settleLevels
  else
    let (s', off) := allPins.foldl
      (fun (p : State × Offers) pin => p.1.join p.2 (s.edgeOffers pin))
      (s.settleLevels, Offers.none)
    s'.handOut off

/-! ### Interval events (R179) -/

/-- The exponent of the selected interval. -/
def IntervalSel.exponent : IntervalSel → Nat
  | .p12 => 12
  | .p16 => 16
  | .p20 => 20
  | .p24 => 24

/-- The slot is a multiple of the selected interval (R179). -/
def State.atInterval (s : State) : Bool := s.now.toNat % 2 ^ s.interval.exponent == 0

/-- The interval test of a slot, once, in a slot reached by advance (R179): an interval occurrence, and
with markers on a MARK record (R153). -/
def State.intervalTurn (s : State) : State :=
  if s.turns.interval then s
  else
    let s1 : State := { s with turns := { s.turns with interval := true } }
    if s.turns.byAdvance ∧ s.atInterval = true then
      let s2 := s1.offerOccurrence .interval
      if s.capture.settings.markers then s2.offer .marker (.mark s.now) else s2
    else s1

/-! ### The passing of a slot (R178) -/

/-- Every due auto-close completion, in ascending bank order; the entries are independent (R25). -/
def State.allCompletions (s : State) : State :=
  s.mapBanks fun e => if e.completionDue s.now then e.afterCompletion s.now else e

/-- The holder of this slot is settled before its write beats are resolved (R50): a READ whose slot
before brought no beats is resolved void, and the due data slots are taken. -/
def State.settleHolder (s : State) : State := (s.resolveVoid .read).allData

/-- The events a slot still owes at its end, each taken in this order (log entry 2). -/
def State.owedEvents (s : State) : State :=
  let s1 := s.forwardCommand.forwardWrite.forwardRead
  let s2 := s1.allCompletions.allEffects
  let s3 := (s2.settleHolder.resolveVoid .write).allDone
  let s4 := s3.intervalTurn.takeTurn.timeout
  let s5 := s4.unitTurn.pickTurn
  allPins.foldl State.endPulse s5

/-- The start of the next slot (R178): the counter advances, what was received is due on the other side
(R9), D-side MRST follows the level sampled (R8), pulses run down (R175). -/
def State.openSlot (s : State) : State :=
  { s with
    now := s.now + 1
    turns := Turns.fresh
    fwd :=
      { rxCommand := none, txCommand := s.fwd.rxCommand
        rxWrite := none, txWrite := s.fwd.rxWrite
        rxRead := none, txRead := s.fwd.rxRead
        mrst := s.fwd.mrst
        pins := Outputs.idle s.fwd.mrst
        ended := s.fwd.pins }
    cues := Vector.ofFn fun k => s.cues[k].tick }

end Sys2Proof.Machine
end

