-- ==== Sys2Proof/Machine/Layout.lean ====
section
/-! DEFINITION. The layouts the service processor reads: items (11.2) and trace records (R194). -/
namespace Sys2Proof.Machine

/-! ### Codes -/

def boolByte (b : Bool) : Byte := if b then 1 else 0

def MapOrder.code : MapOrder → Byte
  | .brc => 0
  | .rbc => 1

def BlindPolicy.code : BlindPolicy → Byte
  | .pass => 0
  | .block => 1

def ChanState.code : ChanState → Byte
  | .live => 0
  | .asleep => 1
  | .resetHeld => 2

def CaptureState.code : CaptureState → Byte
  | .off => 0
  | .run => 1
  | .post => 2
  | .stopped => 3

def SeqState.code : SeqState → Byte
  | .idle => 0
  | .armed => 1
  | .triggered => 2

/-- Command kinds (11.2). -/
def Cmd.code : Cmd → Byte
  | .openBank _ _ => 0
  | .access .read _ _ _ => 1
  | .access .write _ _ _ => 2
  | .closeBank _ => 3
  | .closeAll => 4
  | .refresh => 5
  | .modeLoad _ _ => 6
  | .sleepEnter => 7
  | .sleepExit => 8

/-- The bank a command carries. -/
def Cmd.bank? : Cmd → Option BankNo
  | .openBank b _ => some b
  | .access _ b _ _ => some b
  | .closeBank b => some b
  | _ => none

/-- The row a command carries. -/
def Cmd.row? : Cmd → Option Row
  | .openBank _ r => some r
  | _ => none

/-- The column a command carries. -/
def Cmd.column? : Cmd → Option Col
  | .access _ _ c _ => some c
  | _ => none

/-- The auto-close flag a command carries. -/
def Cmd.autoClose? : Cmd → Bool
  | .access _ _ _ ac => ac
  | _ => false

/-- The word index and the value a command carries. -/
def Cmd.mode? : Cmd → Option (BitVec 2 × BitVec 16)
  | .modeLoad i v => some (i, v)
  | _ => none

def IntervalSel.code : IntervalSel → Byte
  | .p12 => 0
  | .p16 => 1
  | .p20 => 2
  | .p24 => 3

def CueFunction.code : CueFunction → Byte
  | .port => 0
  | .seqCue => 1
  | .windowCue => 2
  | .alertMirror => 3

def WindowKinds.code : WindowKinds → BitVec 2
  | .read => 1
  | .write => 2
  | .both => 3

def CondWidth.code : CondWidth → BitVec 2
  | .w8 => 0
  | .w16 => 1
  | .w32 => 2
  | .w64 => 3

def CondKind.code : CondKind → BitVec 4
  | .any => 0
  | .zero => 1
  | .nonzero => 2
  | .topSet => 3
  | .topClear => 4
  | .allOnes => 5
  | .notAllOnes => 6
  | .maskedEqual => 7

def Join.code : Join → Byte
  | .none => 0
  | .andLevel => 1
  | .or => 2

def Edge.code : Edge → Byte
  | .rising => 0
  | .falling => 1

/-! ### Items (11.2) -/

/-- The data condition byte; an absent condition reads as 0 (R193). -/
def condByte : Option (CondWidth × CondKind) → Byte
  | none => 0
  | some (w, k) => 0x80 ||| (w.code.setWidth 8 <<< 4) ||| k.code.setWidth 8

def WindowActions.byte (a : WindowActions) : Byte :=
  bitAt 0 a.count ||| bitAt 1 a.capture ||| bitAt 2 a.captureData ||| bitAt 3 a.cue |||
    bitAt 4 a.seq ||| bitAt 5 a.guard

/-- A WINDOW item, 35 bytes. -/
def Window.bytes (w : Window) : List Byte :=
  let f := w.fields
  [bitAt 0 f.enable ||| (f.kinds.code.setWidth 8 <<< 1) ||| bitAt 6 w.locked ||| bitAt 7 w.revised] ++
    toBytes 5 f.low ++ toBytes 5 f.high ++ [condByte f.cond] ++ toBytes 8 f.condValue ++
    toBytes 8 f.condMask ++ [f.actions.byte, f.cuePin.setWidth 8, f.lanes] ++ natBytes 4 w.hitCount

/-- The RULE item `n`, 3 bytes; the values of a sequence rule and byte 2 of C1 to C11 read as 0
(R64). -/
def Rule.bytes (n : Nat) (r : Rule) : List Byte :=
  [boolByte r.enabled, if n ≤ 11 then r.value else 0, if n = 11 then r.value2 else 0]

/-- A term in its 4-byte form. -/
def Term.bytes : Term → List Byte
  | .windowHit set => [0, 0] ++ toBytes 2 set
  | .violation set => [1] ++ toBytes 3 set
  | .guard => [2, 0, 0, 0]
  | .cueEdge p e => [3, 0, 0, p.setWidth 8 ||| (e.code <<< 4)]
  | .interval => [4, 0, 0, 0]
  | .always => [5, 0, 0, 0]
  | .level p high => [6, 0, p.setWidth 8, boolByte high]

def StageActions.byte (a : StageActions) : Byte :=
  bitAt 0 a.startCapture ||| bitAt 1 a.stopCapture ||| bitAt 2 a.trigger ||| bitAt 3 a.cue |||
    bitAt 4 a.alert

/-- A STAGE item, 20 bytes. -/
def Stage.bytes (st : Stage) : List Byte :=
  st.termA.bytes ++ [st.join.code] ++ st.termB.bytes ++ toBytes 2 st.n ++ toBytes 3 st.t ++
    [st.nextCondition.setWidth 8, st.nextTimeout.setWidth 8, st.condActions.byte,
     st.condPin.setWidth 8, st.timeoutActions.byte, st.timeoutPin.setWidth 8]

def ClassEnables.byte (c : ClassEnables) : Byte :=
  bitAt 0 c.violation ||| bitAt 1 c.guard ||| bitAt 2 c.stage ||| bitAt 3 c.cue ||| bitAt 4 c.channel

/-- A TRACE item, 2 bytes. -/
def TraceSettings.bytes (t : TraceSettings) (index : Nat) : List Byte :=
  match index with
  | 0 => [0, match t.storeMode with
    | .stop => 0
    | .wrap => 1]
  | 1 => [0, match t.arbiterMode with
    | .fixed => 0
    | .rotating => 1]
  | 2 => [0, boolByte t.captureAll]
  | 3 => [0, boolByte t.captureAllData]
  | 4 => [0, t.classes.byte]
  | 5 => toBytes 2 t.postFill
  | _ => [0, boolByte t.markers]

/-- The ALERT item, 3 bytes. -/
def Alert.bytes (a : Alert) : List Byte := [boolByte a.globalOn] ++ toBytes 2 a.enables

/-- A CUE item, 4 bytes, with the read value of R174. -/
def Cue.bytes (c : Cue) (level : Bool) : List Byte :=
  [c.function.code, boolByte c.out, bitAt 0 c.latch ||| bitAt 7 level, c.width]

/-- The STATUS item, 10 bytes (R190). -/
def State.statusBytes (s : State) : List Byte :=
  [s.chan.code, s.capture.state.code, s.seq.state.code ||| (s.seq.stage.setWidth 8 <<< 4),
   bitAt 0 s.capture.wrapped ||| bitAt 1 s.capture.full] ++
    natBytes 2 (fillOf s.capture.store) ++ natBytes 2 s.capture.store.length ++
    toBytes 2 s.alert.latches

/-- An optional field of a kind as its bytes, 0 when absent. -/
def optBytes {w : Nat} (count : Nat) (x : Option (BitVec w)) : List Byte := toBytes count (x.getD 0)

/-- The FIRST VIOLATION item, 23 bytes (R82); an empty record reads 0 throughout. -/
def firstBytes : Option FirstViolation → List Byte
  | none => List.replicate 23 0
  | some f =>
    [1, f.cmd.code, f.chan.code, (f.cmd.bank?.getD 0).setWidth 8] ++ optBytes 3 f.cmd.row? ++
      optBytes 2 f.cmd.column? ++ [boolByte f.cmd.autoClose?] ++
      [((f.cmd.mode?.map Prod.fst).getD 0).setWidth 8] ++ optBytes 2 (f.cmd.mode?.map Prod.snd) ++
      [BitVec.ofNat 8 (((lowest f.rules).map Fin.val).getD 0)] ++ toBytes 3 f.rules ++
      toBytes 6 f.stamp

/-- A bank entry in the SHADOW item, 34 bytes. -/
def Bank.bytes (e : Bank) : List Byte :=
  let code : Byte := match e.state with
    | .unknown => 0
    | .closed => 1
    | .opened _ => 2
    | .closing _ _ => 3
  let autoClose : Option Slot := match e.state with
    | .closing _ stamp => some stamp
    | _ => none
  [code ||| bitAt 4 e.openStamp.isSome ||| bitAt 5 e.closeStamp.isSome |||
     bitAt 6 e.lastReadEffect.isSome ||| bitAt 7 e.lastWriteEnd.isSome] ++
    optBytes 3 e.row ++ optBytes 6 e.openStamp ++ optBytes 6 e.closeStamp ++
    optBytes 6 e.lastReadEffect ++ optBytes 6 e.lastWriteEnd ++ optBytes 6 autoClose

/-- The three mode words in the SHADOW item, 4 bytes each. -/
def Modes.bytes (m : Modes) : List Byte :=
  (match m.word0 with
    | none => [0, 0, 0, 0]
    | some w =>
      [1, BitVec.ofNat 8 w.len.beats, boolByte (w.order == .exchange), w.readDelay.setWidth 8]) ++
  (match m.word1 with
    | none => [0, 0, 0, 0]
    | some w => [1, w.writeDelay.setWidth 8, w.postedDelay.setWidth 8, 0]) ++
  (match m.word2 with
    | none => [0, 0, 0, 0]
    | some w => [1, boolByte w.maskOn, 0, 0])

/-- The SHADOW item, 556 bytes (R39). -/
def State.shadowBytes (s : State) : List Byte :=
  (s.banks.toList.flatMap Bank.bytes) ++ s.modes.bytes

/-- The TIME item, 7 bytes (R181). -/
def State.timeBytes (s : State) : List Byte := [s.interval.code] ++ toBytes 6 s.now

/-- The value of an item of a group with more than one index, given that the index lies in it. -/
def State.channelBytes (s : State) (index : Nat) : List Byte :=
  match index with
  | 0 => [s.map.order.code]
  | 1 => [BitVec.ofNat 8 s.map.rowBits]
  | 2 => [BitVec.ofNat 8 s.map.colBits]
  | _ => [s.blind.code]

/-- The value of an item (R188); `none` when the address names no item. -/
def State.itemBytes (s : State) (group index : Byte) : Option (List Byte) :=
  let i := index.toNat
  match group.toNat with
  | 0x01 => if i < 4 then some (s.channelBytes i) else none
  | 0x02 => s.checker.rules[i]?.map (Rule.bytes i)
  | 0x03 => s.windows[i]?.map Window.bytes
  | 0x04 => s.seq.stages[i]?.map Stage.bytes
  | 0x05 => if i < 7 then some (s.capture.settings.bytes i) else none
  | 0x06 => if i < 1 then some s.alert.bytes else none
  | 0x07 => s.cues[i]?.map fun c => c.bytes (c.level s.alert.asserted)
  | 0x08 => if i < 1 then some s.timeBytes else none
  | 0x10 => if i < 1 then some s.statusBytes else none
  | 0x11 => if i < 1 then some (s.checker.counts.toList.map (BitVec.ofNat 8)) else none
  | 0x12 => if i < 1 then some (firstBytes s.checker.first) else none
  | 0x13 => if i < 1 then some s.shadowBytes else none
  | 0x14 => if i < 1 then some [BitVec.ofNat 8 s.tracker.length] else none
  | 0x15 => if i < 1 then some Config.identBytes else none
  | _ => none

/-! ### Trace records (R194) -/

/-- The kind code of a record. -/
def Record.kindCode : Record → Byte
  | .access _ => 1
  | .violation _ _ _ => 2
  | .guard _ => 3
  | .stage _ _ _ _ => 4
  | .cue _ _ _ => 5
  | .channel _ _ => 6
  | .mark _ => 7
  | .gap _ _ _ => 8

/-- The stamp of a record. -/
def Record.stamp : Record → Slot
  | .access r => r.stamp
  | .violation _ _ t => t
  | .guard r => r.stamp
  | .stage _ _ _ t => t
  | .cue _ _ t => t
  | .channel _ t => t
  | .mark t => t
  | .gap _ _ t => t

def outcomeCode : Option RetireOutcome → Byte
  | some .done => 0
  | some .cut => 1
  | some .abandoned => 2
  | none => 3

def UntrackedReason.code : UntrackedReason → Byte
  | .state => 0
  | .modeUnset => 1
  | .full => 2

/-- Bit 16 of a row, as a bit. -/
def rowTop (r : Option Row) : Bool := (r.getD 0).getLsbD 16

/-- Bits 15 to 0 of a row, two bytes. -/
def rowLow (r : Option Row) : List Byte := toBytes 2 ((r.getD 0).setWidth 16)

/-- Bytes 6 to 15 of an ACCESS header. -/
def AccessRec.headerBytes (r : AccessRec) : List Byte :=
  let eight := r.lenOrder.any fun x => x.1 == .eight
  let exchange := r.lenOrder.any fun x => x.2 == .exchange
  [bitAt 0 (r.kind == .write) ||| bitAt 1 eight ||| bitAt 2 exchange ||| bitAt 3 r.autoClose |||
     bitAt 4 r.posted ||| bitAt 5 r.data ||| (outcomeCode r.outcome <<< 6),
   bitAt 0 r.doubtful ||| bitAt 1 r.rowless ||| bitAt 2 r.cutFlag ||| bitAt 3 r.untracked.isSome |||
     (((r.untracked.map UntrackedReason.code).getD 0) <<< 4) ||| bitAt 6 r.lenOrder.isSome,
   r.bank.setWidth 8 ||| bitAt 4 (rowTop r.row),
   BitVec.ofNat 8 r.beatsSeen ||| (BitVec.ofNat 8 r.beats.length <<< 4)] ++
    rowLow r.row ++ toBytes 2 r.column ++ toBytes 2 r.hits

/-- Bytes 6 onwards of an event record's header. -/
def Record.headerBytes : Record → List Byte
  | .access r => r.headerBytes
  | .violation rule c _ =>
    [BitVec.ofNat 8 rule.val, c.code,
     (c.bank?.getD 0).setWidth 8 ||| bitAt 4 (rowTop c.row?) ||| bitAt 5 c.bank?.isSome |||
       bitAt 6 c.row?.isSome ||| bitAt 7 c.column?.isSome] ++
      rowLow c.row? ++ optBytes 2 c.column?
  | .guard r =>
    [BitVec.ofNat 8 ((r.window.map Fin.val).getD 0) ||| bitAt 7 r.window.isSome,
     bitAt 0 r.unable ||| bitAt 1 r.blind ||| bitAt 2 r.blocked ||| bitAt 3 r.untracked |||
       bitAt 4 r.locked,
     r.bank.setWidth 8 ||| bitAt 4 (rowTop r.row) ||| bitAt 5 r.row.isSome |||
       bitAt 6 r.column.isSome] ++
      rowLow r.row ++ natBytes 2 (r.column.getD 0) ++
      [r.lanes, BitVec.ofNat 8 r.forced ||| (BitVec.ofNat 8 r.unprotected <<< 4)]
  | .stage source target cause _ =>
    [source.setWidth 8, target.setWidth 8,
     match cause with
      | .condition => 0
      | .timeout => 1
      | .arm => 2
      | .trigger => 3]
  | .cue p e _ => [p.setWidth 8, e.code]
  | .channel ev _ =>
    [match ev with
      | .memresetOn => 0
      | .memresetOff => 1
      | .sleepEnter => 2
      | .sleepExit => 3
      | .forget => 4
      | .softReset => 5]
  | .mark t => toBytes 6 t
  | .gap q n _ =>
    [match q with
      | .access => 0
      | .event => 1
      | .marker => 2] ++ natBytes 2 n

/-- The header unit: kind, length in units, low 32 bits of the stamp, then the kind's bytes. -/
def Record.header (r : Record) : List Byte :=
  padTo 16 ([r.kindCode, BitVec.ofNat 8 r.length] ++ toBytes 4 (r.stamp.setWidth 32) ++ r.headerBytes)

/-- The mask unit: C-side masks, then guard masks, of the captured beats in position order. -/
def maskUnit (beats : List (CapturedBeat × LaneSet)) : List Byte :=
  padTo 8 (beats.map fun b => b.1.mask.getD 0) ++ padTo 8 (beats.map fun b => b.2)

/-- The data units: two beats a unit; the second half of the last is 0 when their number is odd. -/
def dataUnits : List (CapturedBeat × LaneSet) → List (List Byte)
  | [] => []
  | [a] => [padTo 16 (toBytes 8 a.1.data)]
  | a :: b :: rest => (toBytes 8 a.1.data ++ toBytes 8 b.1.data) :: dataUnits rest

/-- The units of a record, header first (R194). -/
def Record.units (r : Record) : List (List Byte) :=
  r.header ::
    match r with
    | .access x =>
      (if x.kind = .write ∧ x.data = true ∧ x.beats ≠ [] then [maskUnit x.beats] else []) ++
        dataUnits x.beats
    | _ => []

end Sys2Proof.Machine
end

