-- ==== Sys2Proof/Machine/Wire.lean ====
section
/-! DEFINITION. The service port on its pins: what it makes of SSEL_N, SCLK and SDI (R182 to R185, R192), the
status codes (11.1), and what it drives on SDO. -/
namespace Sys2Proof.Machine

/-! ### Status bytes (11.1) -/

/-- The status codes (11.1). -/
def Status.code : Status → Byte
  | .ok => 0x00
  | .busy => 0x01
  | .locked => 0x02
  | .range => 0x03
  | .empty => 0x04
  | .unknown => 0x05

/-- The filler byte, equal to no status code (R182, 11.1). -/
def fillerByte : Byte := 0xFF

/-- The bytes of an answer, in the order shifted out: the status byte, then the response data (R182). -/
def Answer.bytes (a : Answer) : List Byte := a.status.code :: a.data

/-! ### What the port receives (R182 to R185) -/

/-- SSEL_N falls: a frame begins (R182). -/
def Port.select (p : Port) : Port :=
  match p.frame with
  | .idle => { p with frame := .request [], bits := [], reply := .filler }
  | .ignored => p
  | .request _ => p
  | .turnaround => p
  | .response _ => p

/-- SSEL_N rises: the frame ends, an incomplete request and the response bytes not shifted out are discarded, a
request that waits goes on waiting without a frame of its own (R182, R184, R185). -/
def Port.deselect (p : Port) : Port := { p with frame := .idle, bits := [], reply := .filler }

/-- A request is complete (R183): it waits to take effect; while an earlier one waits its frame is discarded
and drives filler (R184). -/
def Port.complete (p : Port) (bytes : List Byte) : Port :=
  match p.waiting with
  | some _ => { p with frame := .turnaround }
  | none => { p with frame := .turnaround, waiting := requestOf bytes, reply := .due }

/-- A whole byte is received (R182). With the turnaround byte's end a request not yet in effect loses its status
and its response (R184); bytes after it are ignored. -/
def Port.takeByte (p : Port) (b : Byte) : Port :=
  match p.frame with
  | .idle => p
  | .ignored => p
  | .request bytes =>
    if requestComplete (bytes ++ [b]) then p.complete (bytes ++ [b])
    else { p with frame := .request (bytes ++ [b]) }
  | .turnaround =>
    { p with frame := .response 0, reply := if p.reply = .due then .filler else p.reply }
  | .response n => { p with frame := .response (n + 1) }

/-- The frame is one the port takes part in. -/
def FramePhase.active : FramePhase → Bool
  | .idle => false
  | .ignored => false
  | .request _ => true
  | .turnaround => true
  | .response _ => true

/-- The eight bits of a byte, the first one the most significant (R182). -/
def byteOfBits (bits : List Bool) : Byte :=
  bits.foldl (fun acc b => (acc <<< 1) ||| (if b then 1 else 0)) 0

/-- One cycle of SCLK: the level of SDI is sampled, and eight cycles make a byte (R182). -/
def Port.clock (p : Port) (sdi : Bool) : Port :=
  if p.frame.active then
    let bits := p.bits ++ [sdi]
    if bits.length < 8 then { p with bits := bits }
    else Port.takeByte { p with bits := [] } (byteOfBits bits)
  else p

/-- One event of the port's pins. -/
def Port.wire (p : Port) : Wire → Port
  | .select => p.select
  | .deselect => p.deselect
  | .clock sdi => p.clock sdi

/-- The eight cycles of SCLK that shift a byte in (R182). -/
def wireOfByte (b : Byte) : List Wire := (List.range 8).map fun k => .clock (b.getLsbD (7 - k))

/-- The events of the port's pins, in the order given. -/
def Port.run (p : Port) (wire : List Wire) : Port := wire.foldl Port.wire p

/-- A whole frame that ends after the bytes given (R185). -/
def Port.wholeFrame (p : Port) (bytes : List Byte) : Port :=
  (bytes.foldl Port.takeByte p.deselect.select).deselect

/-! ### A request takes effect (R183, R184) -/

/-- The settled answer goes to the frame of the request that waited, if that frame is still before the end of
its turnaround byte, else it is lost (R183, R184). With no request waiting, the request's own frame was not
spelled on the wire: it stands in its turnaround byte (log entry 12). -/
def Port.settle (p : Port) (a : Answer) : Port :=
  match p.waiting with
  | some _ => { p with waiting := none, reply := if p.reply = .due then .settled a else p.reply }
  | none => { frame := .turnaround, bits := [], waiting := none, reply := .settled a }

/-- The port takes what its pins did in one stretch of time: while a slot lasted, or from the release of PORST_N
until the first slot begins (R182, R184; log entry 12). -/
def State.takeWires (s : State) : State :=
  { s with port := s.port.run (s.wires.headD []), wires := s.wires.tail }

/-! ### What the port drives (R182, R184, R192) -/

/-- The byte the port drives at this place of the frame: filler until the turnaround byte is over, then the
status byte and the response data, then filler; `none` is high impedance. -/
def Port.sdoByte (p : Port) : Option Byte :=
  match p.frame with
  | .idle => none
  | .ignored => none
  | .request _ => some fillerByte
  | .turnaround => some fillerByte
  | .response n =>
    match p.reply with
    | .settled a => some (a.bytes.getD n fillerByte)
    | .filler => some fillerByte
    | .due => some fillerByte

/-- The level on SDO, the most significant bit first; `none` is high impedance, as while PORST_N is asserted
(R182, R192). -/
def State.sdo (s : State) : Option Bool :=
  if s.porst then none else s.port.sdoByte.map fun b => b.getLsbD (7 - s.port.bits.length)

end Sys2Proof.Machine
end

