-- ==== Sys2Proof/Machine/Requests.lean ====
section
/-! DEFINITION. What the service requests do when they take effect (chapter 10 and the chapters that
own the state), and the writes of the items (R189). -/
namespace Sys2Proof.Machine

/-! ### Answers (R183, R184) -/

def Answer.ok : Answer := { status := .ok, data := [] }

def Answer.refuse (st : Status) : Answer := { status := st, data := [] }

/-- The settled answer goes to the frame that sent the request, if it can still take it (R183, R184). -/
def State.respond (s : State) (a : Answer) : State := { s with port := s.port.settle a }

/-! ### Reads (R162, R188, R190) -/

def State.readItem (s : State) (group index : Byte) : State × Answer :=
  match s.itemBytes group index with
  | some data => (s, { status := .ok, data := data })
  | none => (s, Answer.refuse .range)

/-- READ TRACE (R162): the oldest complete record leaves the store; the response carries WRAPPED as it
stood and the record's units, and WRAPPED is cleared. -/
def State.readTrace (s : State) : State × Answer :=
  match s.capture.store with
  | [] => (s, Answer.refuse .empty)
  | r :: rest =>
    (s.setCapture { s.capture with store := rest, wrapped := false },
     { status := .ok, data := boolByte s.capture.wrapped :: r.units.flatten })

/-! ### Requests without a value -/

/-- ACK (R170): bits 15 to 10 of the set name no cause. -/
def State.acknowledge (s : State) (causes : BitVec 16) : State × Answer :=
  if causes.toNat < 1024 then
    ({ s with alert := { s.alert with latches := s.alert.latches &&& ~~~(causes.setWidth 10) } },
     Answer.ok)
  else (s, Answer.refuse .range)

/-- FLUSH (R164). -/
def State.flushCapture (s : State) : State × Answer :=
  if s.capture.running then (s, Answer.refuse .busy)
  else
    (s.setCapture
       { s.capture with
         state := .off, full := false, wrapped := false, store := [], writer := none
         access := Staging.empty, event := Staging.empty, marker := Staging.empty
         rotation := rotationStart },
     Answer.ok)

/-- ARM (R124): the queue is emptied and stage 0 is entered; a STAGE record is offered (R137). After a soft
reset of the same slot it leaves the reset state as it is (R126, R138; log entry 26). -/
def State.armSequencer (s : State) : State :=
  if s.turns.softReset then s
  else
    ((s.setSeq { s.seq with queue := [] }).enterStage 0).offerEvent
      (.stage s.seq.stage 0 .arm s.now)

/-- DISARM (R125). -/
def State.disarmSequencer (s : State) : State :=
  s.setSeq { Sequencer.default with stages := s.seq.stages }

/-- LOCK WINDOW (R115). -/
def State.lockWindow (s : State) (number : Byte) : State × Answer :=
  if h : number.toNat < 16 then
    ({ s with
       windows := s.windows.set number.toNat { s.windows[number.toNat] with locked := true } },
     Answer.ok)
  else (s, Answer.refuse .range)

/-- CLEAR COUNTS on a window (R99, R100). -/
def Window.clearCount (w : Window) : Window := { w with hitCount := 0, revised := false }

/-- CLEAR COUNTS (R84, R99). -/
def State.clearCounts (s : State) : State :=
  { s with
    checker := { s.checker with counts := Vector.replicate 22 0 }
    windows := Vector.ofFn fun k => s.windows[k].clearCount }

/-- CLEAR VIOLATIONS (R84). -/
def State.clearViolations (s : State) : State := s.setChecker { s.checker with first := none }

/-- SET PINS (R177): bits 7 to 4 name the pins, bits 3 to 0 give the latches. -/
def State.setPins (s : State) (value : Byte) : State :=
  { s with
    cues := Vector.ofFn fun k =>
      if value.getLsbD (4 + k.val) then { s.cues[k] with latch := value.getLsbD k.val } else s.cues[k] }

/-! ### Writes of items (R189) -/

/-- A write of a CHANNEL item is refused with LOCKED, else with BUSY, else taken by the item (R17,
R104). -/
def State.channelWrite (s : State) (f : Option State) : State × Answer :=
  if s.anyLocked then (s, Answer.refuse .locked)
  else if s.tracker ≠ [] then (s, Answer.refuse .busy)
  else
    match f with
    | some t => (t, Answer.ok)
    | none => (s, Answer.refuse .range)

/-- A write of a map item (R14, R17). -/
def State.writeMap (s : State) (item : MapItem) (value : Byte) : State × Answer :=
  s.channelWrite ((mapWith s.map item value).map fun m => { s with map := m })

/-- A write of the blind policy (R104). -/
def State.writeBlind (s : State) (value : Byte) : State × Answer :=
  s.channelWrite ((blindPolicyOf value).map fun p => { s with blind := p })

/-- A write of RULE `n` (R64). -/
def State.writeRule (s : State) (index : Byte) (value : BitVec 24) : State × Answer :=
  if h : index.toNat < 22 then
    match ruleOf index.toNat value with
    | some r =>
      (s.setChecker { s.checker with rules := s.checker.rules.set index.toNat r }, Answer.ok)
    | none => (s, Answer.refuse .range)
  else (s, Answer.refuse .range)

/-- Window `k` leaves the candidate set and the satisfied set of an entry in flight (R92). -/
def Entry.withoutWindow (k : Nat) (e : Entry) : Entry :=
  { e with
    candidates := e.candidates &&& ~~~(BitVec.twoPow 16 k)
    satisfied := e.satisfied &&& ~~~(BitVec.twoPow 16 k) }

/-- An accepted rewrite of window `k` (R90, R92, R100). -/
def State.rewriteWindow (s : State) (k : Fin 16) (f : WindowFields) : State :=
  let lost := s.tracker.any fun e => e.candidates.getLsbD k.val
  { s with
    windows := s.windows.set k.val
      { s.windows[k] with fields := f, revised := s.windows[k].revised || lost } k.isLt
    tracker := s.tracker.map (Entry.withoutWindow k.val) }

/-- A write of WINDOW `n` (R90). -/
def State.writeWindow (s : State) (index : Byte) (value : BitVec 280) : State × Answer :=
  if h : index.toNat < 16 then
    if (s.window ⟨index.toNat, h⟩).locked then (s, Answer.refuse .locked)
    else
      match windowOf value with
      | some f => (s.rewriteWindow ⟨index.toNat, h⟩ f, Answer.ok)
      | none => (s, Answer.refuse .range)
  else (s, Answer.refuse .range)

/-- A write of STAGE `n` (R123). After a soft reset of the same slot it is judged and answered by its rule and
leaves the default table (R126, R138; log entry 26). -/
def State.writeStage (s : State) (index : Byte) (value : BitVec 160) : State × Answer :=
  if h : index.toNat < 8 then
    if s.seq.state = .armed then (s, Answer.refuse .busy)
    else
      match stageFrom value with
      | some st =>
        (if s.turns.softReset then s
         else s.setSeq { s.seq with stages := s.seq.stages.set index.toNat st },
         Answer.ok)
      | none => (s, Answer.refuse .range)
  else (s, Answer.refuse .range)

/-- A setting changed by a value in range, or RANGE. -/
def State.settingWrite (s : State) (f : Option Capture) : State × Answer :=
  match f with
  | some c => (s.setCapture c, Answer.ok)
  | none => (s, Answer.refuse .range)

/-- The capture with its settings replaced. -/
def Capture.withSettings (c : Capture) (t : TraceSettings) : Capture := { c with settings := t }

/-- A store mode write taken (R147). -/
def Capture.withStoreMode (c : Capture) (wrap : Bool) : Capture :=
  c.withSettings { c.settings with storeMode := if wrap then .wrap else .stop }

/-- An arbiter mode write taken (R147); writing ROTATING restarts the rotating order (R157). -/
def Capture.withArbiterMode (c : Capture) (rotating : Bool) : Capture :=
  if rotating then
    { c.withSettings { c.settings with arbiterMode := .rotating } with rotation := rotationStart }
  else c.withSettings { c.settings with arbiterMode := .fixed }

/-- A write of a TRACE item (R147): the two modes are refused with BUSY in RUN and POST. -/
def State.writeTrace (s : State) (index : Byte) (value : BitVec 16) : State × Answer :=
  let c := s.capture
  let code := bitCode (byteAt value 1)
  match index.toNat with
  | 0 =>
    if c.running then (s, Answer.refuse .busy) else s.settingWrite (code.map c.withStoreMode)
  | 1 =>
    if c.running then (s, Answer.refuse .busy) else s.settingWrite (code.map c.withArbiterMode)
  | 2 => s.settingWrite (code.map fun b => c.withSettings { c.settings with captureAll := b })
  | 3 => s.settingWrite (code.map fun b => c.withSettings { c.settings with captureAllData := b })
  | 4 =>
    s.settingWrite ((classesOf (byteAt value 1)).map fun k => c.withSettings { c.settings with classes := k })
  | 5 => s.settingWrite ((postFillOf value).map fun p => c.withSettings { c.settings with postFill := p })
  | 6 => s.settingWrite (code.map fun b => c.withSettings { c.settings with markers := b })
  | _ => (s, Answer.refuse .range)

/-- A write of the ALERT item (R168). -/
def State.writeAlert (s : State) (value : BitVec 24) : State × Answer :=
  match alertEnablesOf value with
  | some (g, set) => ({ s with alert := { s.alert with globalOn := g, enables := set } }, Answer.ok)
  | none => (s, Answer.refuse .range)

/-- A cue pin rewritten (R173): a change of function ends any active pulse. -/
def Cue.rewrite (c : Cue) (f : CueFields) : Cue :=
  { c with
    function := f.function, out := f.out, latch := f.latch, width := f.width
    remaining := if c.function = f.function then c.remaining else 0
    active := if c.function = f.function then c.active else false }

/-- A write of CUE `n` (R173). -/
def State.writeCue (s : State) (index : Byte) (value : BitVec 32) : State × Answer :=
  if h : index.toNat < 4 then
    match cueOf value with
    | some f =>
      ({ s with cues := s.cues.set index.toNat (s.cues[index.toNat].rewrite f) }, Answer.ok)
    | none => (s, Answer.refuse .range)
  else (s, Answer.refuse .range)

/-- A write of the TIME item (R181): the counter part is ignored. -/
def State.writeTime (s : State) (value : BitVec 56) : State × Answer :=
  match intervalOf (byteAt value 0) with
  | some i => ({ s with interval := i }, Answer.ok)
  | none => (s, Answer.refuse .range)

/-- A WRITE ITEM by group (R189): RANGE for no group, a read-only group or an index outside the group,
else the owning chapter's judgement of the group's value bytes. -/
def State.writeItem (s : State) (group index : Byte) (value : List Byte) : State × Answer :=
  if groupIndices group ≤ index.toNat then (s, Answer.refuse .range)
  else
    match group.toNat with
    | 0x01 =>
      match index.toNat with
      | 0 => s.writeMap .order (ofBytes 1 value)
      | 1 => s.writeMap .rowWidth (ofBytes 1 value)
      | 2 => s.writeMap .columnWidth (ofBytes 1 value)
      | _ => s.writeBlind (ofBytes 1 value)
    | 0x02 => s.writeRule index (ofBytes 3 value)
    | 0x03 => s.writeWindow index (ofBytes 35 value)
    | 0x04 => s.writeStage index (ofBytes 20 value)
    | 0x05 => s.writeTrace index (ofBytes 2 value)
    | 0x06 => s.writeAlert (ofBytes 3 value)
    | 0x07 => s.writeCue index (ofBytes 4 value)
    | 0x08 => s.writeTime (ofBytes 7 value)
    | _ => (s, Answer.refuse .range)

/-! ### A request takes effect (R183, R184) -/

/-- What each request does, and its answer (R186); `none` for a command that is no request: a defined code is no
unknown request (R187), and a WRITE ITEM with too few value bytes is no complete one (R185). -/
def State.requestEffect (s : State) : Instr → Option (State × Answer)
  | .readItem group index => some (s.readItem group index)
  | .readStatus => some (s, { status := .ok, data := s.statusBytes })
  | .readTrace => some s.readTrace
  | .ack causes => some (s.acknowledge causes)
  | .captureStart => some (s.startCapture, Answer.ok)
  | .captureStop => some (s.stopCapture, Answer.ok)
  | .flush => some s.flushCapture
  | .arm => some (s.armSequencer, Answer.ok)
  | .disarm => some (s.disarmSequencer, Answer.ok)
  | .lockWindow number => some (s.lockWindow number)
  | .clearCounts => some (s.clearCounts, Answer.ok)
  | .clearViolations => some (s.clearViolations, Answer.ok)
  | .timeClear => some (s.clearTime, Answer.ok)
  | .shadowForget => some (s.forgetShadow, Answer.ok)
  | .setPins value => some (s.setPins value, Answer.ok)
  | .softReset => some (s.resetSoftly, Answer.ok)
  | .unknownRequest code => if (operandBytes code).isSome then none else some (s, Answer.refuse .unknown)
  | .writeAddressMap item value => some (s.writeMap item value)
  | .writeBlindPolicy value => some (s.writeBlind value)
  | .writeRule index value => some (s.writeRule index value)
  | .writeWindow index value => some (s.writeWindow index value)
  | .writeStage index value => some (s.writeStage index value)
  | .writeTraceSetting index value => some (s.writeTrace index value)
  | .writeAlertEnables value => some (s.writeAlert value)
  | .writeCue index value => some (s.writeCue index value)
  | .writeTime value => some (s.writeTime value)
  | .writeItem group index value =>
    if writeBytes group ≤ value.length then some (s.writeItem group index value) else none
  | _ => none

/-- A request takes effect, in one event with its answer (R183). -/
def State.request (s : State) (c : Instr) : State :=
  match s.requestEffect c with
  | none => s
  | some (t, a) => t.respond a

/-- The request may take effect now: none waits, or it is the one that waits. The port holds at most one waiting
request, and no other takes effect before it (R184, log entry 12). -/
def State.admits (s : State) (c : Instr) : Bool :=
  match s.port.waiting with
  | none => true
  | some w => requestForm w == requestForm c

/-- The row of a request: it takes effect if the port admits it; while PORST_N is asserted the port ignores its
pins (R192). -/
def State.serve (s : State) (c : Instr) : Out := s.whileUp fun t => if t.admits c then t.request c else t

/-- The request that waits takes effect (R183, R184). -/
def State.serveWaiting (s : State) : State :=
  match s.port.waiting with
  | none => s
  | some c => s.request c

end Sys2Proof.Machine
end

