-- ==== Sys2Proof/Machine/ChannelCommands.lean ====
section
/-! DEFINITION. The meanings of the arrivals, of forwarding, of the reset lines and of the beats. -/
namespace Sys2Proof.Machine

/-! ### Arrivals (R1, R20 to R31, R42 to R45, R63 to R83) -/

def execOpenBank (bank : BankNo) (row : Row) (s : State) : Out :=
  .next (s.arrive (.openBank bank row))

def execReadBurst (bank : BankNo) (column : Col) (autoClose : Bool) (s : State) : Out :=
  .next (s.arrive (.access .read bank column autoClose))

def execWriteBurst (bank : BankNo) (column : Col) (autoClose : Bool) (s : State) : Out :=
  .next (s.arrive (.access .write bank column autoClose))

def execCloseBank (bank : BankNo) (s : State) : Out := .next (s.arrive (.closeBank bank))

def execCloseAll (s : State) : Out := .next (s.arrive .closeAll)

def execRefresh (s : State) : Out := .next (s.arrive .refresh)

def execModeLoad (index : BitVec 2) (value : BitVec 16) (s : State) : Out :=
  .next (s.arrive (.modeLoad index value))

def execSleepEnter (s : State) : Out := .next (s.arrive .sleepEnter)

def execSleepExit (s : State) : Out := .next (s.arrive .sleepExit)

/-- A pattern that is none of the nine kinds (R1): held for the D-side, otherwise an idle slot. -/
def execUndefinedEncoding (code : Nat) (s : State) : Out :=
  .next (if s.porst ∨ s.turns.command then s else s.sampleCommand (.undefinedCode code))

/-- The command received in the slot before is driven on the D-side (R9). -/
def execForwardCommand (s : State) : Out := s.whileUp State.forwardCommand

/-! ### Reset lines (R8, R13, R32 to R34, R192) -/

/-- MRST is sampled asserted after it was sampled released (R8, R32). -/
def execMemoryResetAssertion (s : State) : Out :=
  s.whileUp fun t => if t.fwd.mrst ∨ t.turns.mrst then t else t.assertReset

/-- MRST is sampled released after it was sampled asserted (R8, R33). -/
def execMemoryResetRelease (s : State) : Out :=
  s.whileUp fun t => if t.fwd.mrst = false ∨ t.turns.mrst then t else t.releaseReset

/-- The power-on values of every block, with the levels sampled in the first slot; the model's own counters
and the queue of commands go on, and so do the lists of the port's pins. -/
def State.powered (s : State) (porst mrst : Bool) (pins : BitVec 4) (select : Bool) : State :=
  { State.powerOn porst mrst pins select with
    nextNumber := s.nextNumber, free := s.free, wires := s.wires, pending := s.pending }

/-- PORST_N is asserted (R13, R34, R174, R192): forwarding stops, no pin is sampled, a frame in progress is
discarded, and every block takes its power-on values. What the port's pins do in the slot cut short is ignored with
the frame: its list is dropped (log entry 12). -/
def execPowerOnResetAssert (s : State) : Out :=
  .next (if s.porst then s else { s.powered true false 0 false with wires := s.wires.tail })

/-- PORST_N is released (R13, R34): a frame whose SSEL_N is low at the release is ignored until SSEL_N rises
(R192), and the port takes what its pins do until the first slot begins, so that a request complete by then waits
into it (R184, log entry 12); then the first slot, with value 0 and the channel LIVE; with MRST sampled asserted in
it, a memory reset assertion at once (R8). -/
def execPowerOnResetRelease (sampled : Sampled) (s : State) : Out :=
  .next
    (if s.porst then
       let t := (s.powered false sampled.mrst sampled.pins sampled.select).takeWires
       if sampled.mrst then t.assertReset else t
     else s)

/-! ### Beats (R10 to R12, R50) -/

/-- The write beats of this slot (R12, R50): D-side beats of the slot are taken back from the forwarding path
and from the READ they were attributed to, then the slot's holder is settled. One pair of write beats in a
slot; none in a slot whose D-side beats a READ has already been retired with, which fixed the slot's direction
(log entry 7). -/
def execWriteBeatReceive (data0 : BeatData) (mask0 : LaneSet) (data1 : BeatData) (mask1 : LaneSet)
    (s : State) : Out :=
  s.whileUp fun t =>
    if t.turns.writeBeats ∨ t.directionFixed = true then t
    else
      t.takeBack.settleHolder.receiveWrite { data := data0, mask := mask0 }
        { data := data1, mask := mask1 }

/-- The read beats of this slot (R4, R50): dropped when the C-side drives a strobe too (R12). -/
def execReadBeatReceive (cStrobe : Bool) (data0 data1 : BeatData) (s : State) : Out :=
  s.whileUp fun t =>
    if t.turns.readBeats then t
    else if cStrobe ∨ t.turns.writeBeats then { t with turns := { t.turns with readBeats := true } }
    else t.receiveRead data0 data1

/-- The write beats received in the slot before are driven on the D-side (R11, R108). -/
def execWriteBeatForward (s : State) : Out := s.whileUp State.forwardWrite

/-- The read beats received in the slot before are driven on the C-side (R9). -/
def execReadBeatForward (s : State) : Out := s.whileUp State.forwardRead

/-- No beats of the holder's direction came (R50): first a READ that held the slot before, else the
WRITE that holds this slot, settled first. Put into the queue before beats of the holder's direction in the same
slot, a contradiction the spec rules out, the void stands: those beats are then stray, a WRITE's without guard
lanes (DESIGN CHOICE, log entry 8). -/
def execVoidSlotResolve (s : State) : Out :=
  s.whileUp fun t =>
    if (t.openHolder .read (t.now - 1)).isSome then t.resolveVoid .read
    else if (t.allData.openHolder .write t.now).isSome then t.allData.resolveVoid .write
    else t

end Sys2Proof.Machine
end

