-- ==== Sys2Proof/Machine/EventCommands.lean ====
section
/-! DEFINITION. The meanings of the part's own events. An event that is not due is no event: nothing
changes (log entry 4). -/
namespace Sys2Proof.Machine

/-- The number of the entry at a place of the tracker list, oldest first; with no entry there, a number
no entry has. -/
def State.numberAt (s : State) (place : BitVec 3) : Nat :=
  match s.tracker[place.toNat]? with
  | some e => e.number
  | none => s.nextNumber

/-- The entry at the place reaches its effect slot (R46). -/
def execEffectSlot (place : BitVec 3) (s : State) : Out :=
  s.whileUp fun t => t.effectStep (t.numberAt place)

/-- The entry at the place reaches its data slot (R48, R49). -/
def execDataSlot (place : BitVec 3) (s : State) : Out :=
  s.whileUp fun t => t.dataStep (t.numberAt place)

/-- The entry at the place retires DONE (R52). -/
def execRetireDone (place : BitVec 3) (s : State) : Out :=
  s.whileUp fun t => t.doneStep (t.numberAt place)

/-- The bank's auto-close completes (R25). -/
def execAutoCloseCompletion (bank : BankNo) (s : State) : Out :=
  s.whileUp fun t => t.completeAutoClose bank

/-- The sequencer's take of this slot (R130). -/
def execOccurrenceTake (s : State) : Out := s.whileUp State.takeTurn

/-- The stage in force times out (R133). -/
def execStageTimeout (s : State) : Out := s.whileUp State.timeout

/-- The arbiter's pick of this slot (R157). -/
def execArbiterPick (s : State) : Out := s.whileUp State.pickTurn

/-- The writer's unit of this slot (R158). -/
def execUnitWrite (s : State) : Out := s.whileUp State.unitTurn

/-- The pulse on the pin ends (R175). -/
def execPulseEnd (pin : PinNo) (s : State) : Out := s.whileUp fun t => t.endPulse pin

/-- The level of a pin on the board is sampled anew (R174): once in a slot for each pin. -/
def execCueInputChange (pin : PinNo) (level : Bool) (s : State) : Out :=
  s.whileUp fun t => t.samplePin pin level

/-- The events a slot still takes at its end: those it owes, then the request that waits, for which this slot is
the first since its last bit (R183, R184; log entries 2 and 12). -/
def State.lastEvents (s : State) : State := s.owedEvents.serveWaiting

/-- The end of a slot: its last events, the comparison of the cue pins (R176), and what the port's pins did, so
that a request complete with this slot's bits takes effect in the next one (R183). -/
def State.closeSlot (s : State) : State := s.lastEvents.takeEdges.takeWires

/-- The slot ends and the next one starts (R178). While PORST_N is asserted only time goes by on the port's pins,
which the port ignores (R192). -/
def execSlotAdvance (s : State) : Out :=
  .next (if s.porst then { s with wires := s.wires.tail } else s.closeSlot.openSlot)

/-- The interval test of this slot (R179). -/
def execIntervalEvent (s : State) : Out := s.whileUp State.intervalTurn

end Sys2Proof.Machine
end

