-- ==== Sys2Proof/Machine/PortCommands.lean ====
section
/-! DEFINITION. The meanings of the frames and requests of the service port. -/
namespace Sys2Proof.Machine

/-! ### Frames without effect (R184, R185, R187) -/

/-- A whole frame that ends before its request is complete is discarded: nothing but the frame is gone (R185).
Bytes that hold a complete request are no such frame: no event (log entry 21). -/
def execFrameAborted (bytes : List Byte) (s : State) : Out :=
  s.whileUp fun t =>
    if requestComplete bytes then t else { t with port := t.port.wholeFrame bytes }

/-- A request completes in a frame of its own while an earlier one still waits (R184): its frame is discarded
and drives filler, and the waiting request, whose own frame is over, will lose its answer. With none waiting
it is no event (log entry 4). -/
def execFrameDiscardedWaiting (s : State) : Out :=
  s.whileUp fun t =>
    match t.port.waiting with
    | none => t
    | some c =>
      { t with port := { frame := .turnaround, bits := [], waiting := some c, reply := .filler } }

/-- A request byte with no defined code (R187). -/
def execUnknownRequest (code : Byte) (s : State) : Out :=
  s.serve (.unknownRequest code)

/-! ### Requests (R186) -/

def execReadItem (group index : Byte) (s : State) : Out := s.serve (.readItem group index)

def execReadStatus (s : State) : Out := s.serve .readStatus

def execReadTrace (s : State) : Out := s.serve .readTrace

def execAck (causes : BitVec 16) (s : State) : Out := s.serve (.ack causes)

def execCaptureStart (s : State) : Out := s.serve .captureStart

def execCaptureStop (s : State) : Out := s.serve .captureStop

def execFlush (s : State) : Out := s.serve .flush

def execArm (s : State) : Out := s.serve .arm

def execDisarm (s : State) : Out := s.serve .disarm

def execLockWindow (number : Byte) (s : State) : Out := s.serve (.lockWindow number)

def execClearCounts (s : State) : Out := s.serve .clearCounts

def execClearViolations (s : State) : Out := s.serve .clearViolations

def execTimeClear (s : State) : Out := s.serve .timeClear

def execShadowForget (s : State) : Out := s.serve .shadowForget

def execSetPins (value : Byte) (s : State) : Out := s.serve (.setPins value)

def execSoftReset (s : State) : Out := s.serve .softReset

/-! ### Writes (R189) -/

def execWriteAddressMap (item : MapItem) (value : Byte) (s : State) : Out := s.serve (.writeAddressMap item value)

def execWriteBlindPolicy (value : Byte) (s : State) : Out := s.serve (.writeBlindPolicy value)

def execWriteRule (index : Byte) (value : BitVec 24) (s : State) : Out := s.serve (.writeRule index value)

def execWriteWindow (index : Byte) (value : BitVec 280) (s : State) : Out := s.serve (.writeWindow index value)

def execWriteStage (index : Byte) (value : BitVec 160) (s : State) : Out := s.serve (.writeStage index value)

def execWriteTraceSetting (index : Byte) (value : BitVec 16) (s : State) : Out := s.serve (.writeTraceSetting index value)

def execWriteAlertEnables (value : BitVec 24) (s : State) : Out := s.serve (.writeAlertEnables value)

def execWriteCue (index : Byte) (value : BitVec 32) (s : State) : Out := s.serve (.writeCue index value)

def execWriteTime (value : BitVec 56) (s : State) : Out := s.serve (.writeTime value)

/-- A WRITE ITEM (R189): with fewer value bytes than the group carries the frame ended early and has no
effect (R185). -/
def execWriteItem (group index : Byte) (value : List Byte) (s : State) : Out :=
  if value.length < writeBytes group then
    s.whileUp fun t => { t with port := t.port.wholeFrame ([0x02, group, index] ++ value) }
  else s.serve (.writeItem group index value)

end Sys2Proof.Machine
end

