-- ==== Sys2Proof/Machine/Dispatch.lean ====
section
/-! DEFINITION. One arm per command: each a direct call of its meaning. -/
namespace Sys2Proof.Machine

def exec (i : Instr) (s : State) : Host.Outcome State Fault Refusal :=
  match i with
  | .openBank bank row => Sys2Proof.Machine.execOpenBank bank row s
  | .readBurst bank column autoClose => Sys2Proof.Machine.execReadBurst bank column autoClose s
  | .writeBurst bank column autoClose => Sys2Proof.Machine.execWriteBurst bank column autoClose s
  | .closeBank bank => Sys2Proof.Machine.execCloseBank bank s
  | .closeAll => Sys2Proof.Machine.execCloseAll s
  | .refresh => Sys2Proof.Machine.execRefresh s
  | .modeLoad index value => Sys2Proof.Machine.execModeLoad index value s
  | .sleepEnter => Sys2Proof.Machine.execSleepEnter s
  | .sleepExit => Sys2Proof.Machine.execSleepExit s
  | .undefinedEncoding code => Sys2Proof.Machine.execUndefinedEncoding code s
  | .forwardCommand => Sys2Proof.Machine.execForwardCommand s
  | .memoryResetAssertion => Sys2Proof.Machine.execMemoryResetAssertion s
  | .memoryResetRelease => Sys2Proof.Machine.execMemoryResetRelease s
  | .powerOnResetAssert => Sys2Proof.Machine.execPowerOnResetAssert s
  | .powerOnResetRelease sampled => Sys2Proof.Machine.execPowerOnResetRelease sampled s
  | .writeBeatReceive data0 mask0 data1 mask1 => Sys2Proof.Machine.execWriteBeatReceive data0 mask0 data1 mask1 s
  | .readBeatReceive cStrobe data0 data1 => Sys2Proof.Machine.execReadBeatReceive cStrobe data0 data1 s
  | .writeBeatForward => Sys2Proof.Machine.execWriteBeatForward s
  | .readBeatForward => Sys2Proof.Machine.execReadBeatForward s
  | .voidSlotResolve => Sys2Proof.Machine.execVoidSlotResolve s
  | .effectSlot place => Sys2Proof.Machine.execEffectSlot place s
  | .dataSlot place => Sys2Proof.Machine.execDataSlot place s
  | .retireDone place => Sys2Proof.Machine.execRetireDone place s
  | .autoCloseCompletion bank => Sys2Proof.Machine.execAutoCloseCompletion bank s
  | .occurrenceTake => Sys2Proof.Machine.execOccurrenceTake s
  | .stageTimeout => Sys2Proof.Machine.execStageTimeout s
  | .arbiterPick => Sys2Proof.Machine.execArbiterPick s
  | .unitWrite => Sys2Proof.Machine.execUnitWrite s
  | .pulseEnd pin => Sys2Proof.Machine.execPulseEnd pin s
  | .cueInputChange pin level => Sys2Proof.Machine.execCueInputChange pin level s
  | .slotAdvance => Sys2Proof.Machine.execSlotAdvance s
  | .intervalEvent => Sys2Proof.Machine.execIntervalEvent s
  | .frameAborted bytes => Sys2Proof.Machine.execFrameAborted bytes s
  | .frameDiscardedWaiting => Sys2Proof.Machine.execFrameDiscardedWaiting s
  | .readItem group index => Sys2Proof.Machine.execReadItem group index s
  | .readStatus => Sys2Proof.Machine.execReadStatus s
  | .readTrace => Sys2Proof.Machine.execReadTrace s
  | .ack causes => Sys2Proof.Machine.execAck causes s
  | .captureStart => Sys2Proof.Machine.execCaptureStart s
  | .captureStop => Sys2Proof.Machine.execCaptureStop s
  | .flush => Sys2Proof.Machine.execFlush s
  | .arm => Sys2Proof.Machine.execArm s
  | .disarm => Sys2Proof.Machine.execDisarm s
  | .lockWindow number => Sys2Proof.Machine.execLockWindow number s
  | .clearCounts => Sys2Proof.Machine.execClearCounts s
  | .clearViolations => Sys2Proof.Machine.execClearViolations s
  | .timeClear => Sys2Proof.Machine.execTimeClear s
  | .shadowForget => Sys2Proof.Machine.execShadowForget s
  | .setPins value => Sys2Proof.Machine.execSetPins value s
  | .softReset => Sys2Proof.Machine.execSoftReset s
  | .unknownRequest code => Sys2Proof.Machine.execUnknownRequest code s
  | .writeAddressMap item value => Sys2Proof.Machine.execWriteAddressMap item value s
  | .writeBlindPolicy value => Sys2Proof.Machine.execWriteBlindPolicy value s
  | .writeRule index value => Sys2Proof.Machine.execWriteRule index value s
  | .writeWindow index value => Sys2Proof.Machine.execWriteWindow index value s
  | .writeStage index value => Sys2Proof.Machine.execWriteStage index value s
  | .writeTraceSetting index value => Sys2Proof.Machine.execWriteTraceSetting index value s
  | .writeAlertEnables value => Sys2Proof.Machine.execWriteAlertEnables value s
  | .writeCue index value => Sys2Proof.Machine.execWriteCue index value s
  | .writeTime value => Sys2Proof.Machine.execWriteTime value s
  | .writeItem group index value => Sys2Proof.Machine.execWriteItem group index value s

end Sys2Proof.Machine
end

