-- ==== Sys2Proof/Safety.lean ====
section
/-! DEFINITION. The invariants of the block, one for each kind of state the spec bounds, and the frames:
what it means that a part of the state stays as it is. -/
namespace Sys2Proof.Machine

/-! ### Invariants -/

/-- What R40, R41, R43, R50 and R51 say of one tracker entry at any time: ROWLESS exactly without a row,
no more beats than L, no beats before STREAMING, as many captured elements as beats seen, no guard mask
and no account for a READ. -/
abbrev Entry.Inv (e : Entry) : Prop :=
  e.rowless = e.row.isNone ∧
  e.beatsSeen ≤ e.len.beats ∧
  (e.phase ≠ .streaming → e.beatsSeen = 0) ∧
  (∀ l ∈ e.captured, l.length = e.beatsSeen) ∧
  (e.kind = .read → e.guard = [] ∧ e.account = none)

/-- The tracker list (R40): at most 8 entries in arrival order, each entered once, at most one of them
STREAMING. -/
abbrev State.TrackerInv (s : State) : Prop :=
  s.tracker.length ≤ 8 ∧
  (s.tracker.map Entry.number).Pairwise (· < ·) ∧
  (∀ e ∈ s.tracker, e.number < s.nextNumber) ∧
  (s.tracker.filter Entry.isStreaming).length ≤ 1 ∧
  ∀ e ∈ s.tracker, e.Inv

/-- The units reserved for the record in progress (R158). -/
def Capture.reserved (c : Capture) : Nat :=
  match c.writer with
  | none => 0
  | some w => w.record.length

/-- One staging queue of trace capture (R149, R154 to R156): its places, whole records of at most 6 units,
the lost count's bound; empty unless capture runs; while it runs, a nonzero lost count waits only for a
place. -/
abbrev Capture.QueueInv (c : Capture) (q : QueueId) : Prop :=
  (c.queue q).records.length ≤ q.places ∧
  (∀ r ∈ (c.queue q).records, r.length ≤ 6) ∧
  (c.queue q).lost ≤ 65535 ∧
  (c.running = false → (c.queue q).records = []) ∧
  (c.running = true → (c.queue q).lost ≠ 0 → (c.queue q).records.length = q.places)

/-- Trace capture (R140, R144, R152, R154 to R159). -/
abbrev Capture.Inv (c : Capture) : Prop :=
  c.QueueInv .access ∧ c.QueueInv .event ∧ c.QueueInv .marker ∧
  c.postCounter ≤ 4095 ∧
  (c.state = .post → 1 ≤ c.postCounter) ∧
  (c.running = true → c.note = none) ∧
  fillOf c.store + c.reserved ≤ 4096 ∧
  (∀ w ∈ c.writer, 1 ≤ w.written ∧ w.written < w.record.length ∧ w.record.length ≤ 6) ∧
  c.rotation.Perm [.event, .access, .marker]

/-- A stage that a write can leave in the table (R120, R123). -/
abbrev Stage.Inv (st : Stage) : Prop :=
  st.n ≠ 0 ∧ st.termA.isLevel = false ∧ termFits st.join st.termB = true

/-- The trigger sequencer (R119, R120, R124, R127, R132, R136). -/
abbrev State.SequencerInv (s : State) : Prop :=
  s.seq.queue.length ≤ 16 ∧
  (s.seq.state = .idle →
    s.seq.stage = 0 ∧ s.seq.count = 0 ∧ s.seq.expiry = none ∧ s.seq.entry = false ∧ s.seq.queue = []) ∧
  (s.seq.state = .triggered →
    s.seq.count = 0 ∧ s.seq.expiry = none ∧ s.seq.entry = false ∧ s.seq.queue = []) ∧
  (s.seq.state = .armed →
    s.seq.count < (s.stageOf s.seq.stage).n.toNat ∧
    (s.seq.expiry = none ↔ (s.stageOf s.seq.stage).t = 0)) ∧
  (∀ o ∈ s.seq.queue, ∃ st ∈ s.seq.stages.toList, st.uses o = true) ∧
  ∀ st ∈ s.seq.stages.toList, st.Inv

/-- The checker (R63, R73, R81, R82). -/
abbrev Checker.Inv (c : Checker) : Prop :=
  (∀ n : Fin 22, c.counts[n] ≤ 255) ∧
  (∀ n : Fin 22, ruleInRange n.val c.rules[n].value c.rules[n].value2 = true) ∧
  c.rolling.length ≤ 8 ∧
  ∀ f ∈ c.first, f.rules ≠ 0

/-- A window (R86, R89). -/
abbrev Window.Inv (w : Window) : Prop :=
  w.fields.low ≤ w.fields.high ∧
  w.hitCount ≤ 4294967295 ∧
  (w.fields.actions.captureData = true → w.fields.actions.capture = true)

/-- The address map (R14). -/
abbrev AddrMap.Inv (m : AddrMap) : Prop :=
  12 ≤ m.rowBits ∧ m.rowBits ≤ 17 ∧ 9 ≤ m.colBits ∧ m.colBits ≤ 11

/-- The field values of VALID mode words lie in the ranges of R3 (R29). -/
abbrev Modes.Inv (m : Modes) : Prop :=
  (∀ w ∈ m.word0, 4 ≤ w.readDelay.toNat ∧ w.readDelay.toNat ≤ 14) ∧
  ∀ w ∈ m.word1, 3 ≤ w.writeDelay.toNat ∧ w.writeDelay.toNat ≤ 13 ∧ w.postedDelay.toNat ≤ 6

/-- A cue pin (R173, R175): the pulse width is not 0, slots remain only in a pulse, and only a pin of a
pulse function has one. -/
abbrev Cue.Inv (c : Cue) : Prop :=
  c.width ≠ 0 ∧ c.remaining ≤ 255 ∧ (c.remaining ≠ 0 → c.active = true) ∧
  (c.active = true → c.function = .seqCue ∨ c.function = .windowCue)

/-- The channel state (R8, R32, R33, R42): RESET HELD exactly while MRST is sampled asserted, and then no
bank holds a row, every mode word is INVALID and no entry is in flight. -/
abbrev State.ChannelInv (s : State) : Prop :=
  (s.chan = .resetHeld ↔ s.fwd.mrst = true) ∧
  (s.chan = .resetHeld →
    (∀ b : BankNo, (s.bank b).row = none) ∧ s.modes = Modes.invalid ∧ s.tracker = [])

/-- The service port (R182 to R185): fewer than eight bits wait, an inactive frame holds nothing, the bytes of a
request in progress are no complete request, and only a frame in its turnaround byte awaits the answer of the
request that waits. -/
abbrev Port.Inv (p : Port) : Prop :=
  p.bits.length < 8 ∧
  (p.frame.active = false → p.bits = [] ∧ p.reply = .filler) ∧
  (∀ l, p.frame = .request l → requestComplete l = false ∧ p.reply = .filler) ∧
  (p.reply = .due → p.frame = .turnaround ∧ p.waiting.isSome = true)

/-- The settings and counters that a bound holds for, together. -/
abbrev State.SettingsInv (s : State) : Prop :=
  s.checker.Inv ∧ (∀ k : Fin 16, s.windows[k].Inv) ∧ s.map.Inv ∧ s.modes.Inv ∧
  ∀ p : Fin 4, s.cues[p].Inv

/-- The invariant of the block. -/
abbrev State.Inv (s : State) : Prop :=
  s.TrackerInv ∧ s.capture.Inv ∧ s.SequencerInv ∧ s.ChannelInv ∧ s.SettingsInv ∧ s.port.Inv

/-! ### Frames -/

/-- What the service processor programs stays as it is: address map, blind policy, rule table, the
programmed fields and lock states of the windows, stage table, TRACE, ALERT, CUE and TIME settings. -/
abbrev State.SameProgram (s t : State) : Prop :=
  t.map = s.map ∧ t.blind = s.blind ∧ t.checker.rules = s.checker.rules ∧
  (∀ k : Fin 16, t.windows[k].fields = s.windows[k].fields ∧ t.windows[k].locked = s.windows[k].locked) ∧
  t.seq.stages = s.seq.stages ∧ t.capture.settings = s.capture.settings ∧
  t.alert.globalOn = s.alert.globalOn ∧ t.alert.enables = s.alert.enables ∧
  (∀ p : Fin 4,
    t.cues[p].function = s.cues[p].function ∧ t.cues[p].out = s.cues[p].out ∧
    t.cues[p].latch = s.cues[p].latch ∧ t.cues[p].width = s.cues[p].width) ∧
  t.interval = s.interval

/-- The shadow stays as it is: channel state, bank entries, mode words. -/
abbrev State.SameShadow (s t : State) : Prop := t.chan = s.chan ∧ t.banks = s.banks ∧ t.modes = s.modes

/-- The tracker stays as it is. -/
abbrev State.SameTracker (s t : State) : Prop :=
  t.tracker = s.tracker ∧ t.waiting = s.waiting ∧ t.nextNumber = s.nextNumber

/-- The clock, the reset line and the queue of commands stay as they are. -/
abbrev State.SameTime (s t : State) : Prop :=
  t.now = s.now ∧ t.porst = s.porst ∧ t.pending = s.pending

/-! ### Words of the statements -/

/-- The command pins of this slot have not been sampled with a command yet (R1). -/
abbrev State.Listens (s : State) : Prop := s.porst = false ∧ s.turns.command = false

/-- The arrival of a command of one of the nine kinds (R1, R2). -/
def Cmd.arrival : Cmd → Instr
  | .openBank b r => .openBank b r
  | .access .read b c ac => .readBurst b c ac
  | .access .write b c ac => .writeBurst b c ac
  | .closeBank b => .closeBank b
  | .closeAll => .closeAll
  | .refresh => .refresh
  | .modeLoad i v => .modeLoad i v
  | .sleepEnter => .sleepEnter
  | .sleepExit => .sleepExit

/-- The window-hit occurrences that hits offer: one for each window of the set with SEQ, ascending (R98). -/
def State.seqHits (s : State) (hits : WindowSet) : List Occurrence :=
  ((List.finRange 16).filter fun k => hits.getLsbD k.val && s.windows[k].fields.actions.seq).map .windowHit

/-- The port admits the row of the request: no other request waits (R184, log entry 12). -/
abbrev State.Serves (s : State) (c : Instr) : Prop :=
  s.porst = false ∧ ∀ w, s.port.waiting = some w → requestForm w = requestForm c

/-- The commands that a command's event carries out: itself and, at a slot's end, the request that waits (R183,
R184). -/
def State.performs (s : State) (c : Instr) : List Instr :=
  c :: if c = .slotAdvance then s.port.waiting.toList else []

/-- No command that the event carries out is one of those named. -/
abbrev State.Spares (s : State) (named : Instr → Bool) (c : Instr) : Prop :=
  ∀ x ∈ s.performs c, named x = false

/-! ### What an event hands over -/

/-- What the hits of one event do at once, one hit set for each access that it judges (R98, R175): the counter of a
window with COUNT rises by 1 for each hit and stops at its maximum, and each WINDOW-CUE pin that a hit window with
CUE names starts a pulse of its width; nothing else of windows and pins changes. -/
abbrev State.HitsActed (s t : State) (hits : List WindowSet) : Prop :=
  (∀ k : Fin 16,
    let n := hits.countP fun h => h.getLsbD k.val && s.windows[k].fields.actions.count
    t.windows[k] =
      { s.windows[k] with
        hitCount := if n = 0 then s.windows[k].hitCount else min (s.windows[k].hitCount + n) 4294967295 }) ∧
  ∀ p : Fin 4, t.cues[p] =
    if s.cues[p].function = .windowCue ∧ ∃ h ∈ hits, ∃ k : Fin 16, h.getLsbD k.val = true ∧
        s.windows[k].fields.actions.cue = true ∧ s.windows[k].fields.cuePin.toNat = p.val then
      { s.cues[p] with remaining := s.cues[p].width.toNat, active := true }
    else s.cues[p]

/-- What becomes of the occurrences one event offers, each list in its order and the lists against each other in any
(log entry 3). In ARMED those that some stage can use join the queue as far as its places go, and SEQ_OVERRUN is
set when they go beyond (R127, R129). -/
abbrev State.OccurrencesQueued (s t : State) (lists : List (List Occurrence)) : Prop :=
  let used (l : List Occurrence) : List Occurrence :=
    l.filter fun o => s.seq.stages.toList.any fun st => st.uses o
  (s.seq.state ≠ .armed → t.seq.queue = s.seq.queue) ∧
  (s.seq.state = .armed → s.seq.queue.length ≤ 16 →
    ∃ l, l.Perm (used lists.flatten) ∧ (∀ x ∈ lists, (used x).Sublist l) ∧
      t.seq.queue = (s.seq.queue ++ l).take 16 ∧
      t.alert.latches.getLsbD 7 =
        (s.alert.latches.getLsbD 7 || decide (16 < s.seq.queue.length + l.length)))

/-- What becomes of the event records one event offers, each list in its order and the lists against each other in
any (log entry 3). In RUN and POST those whose class is enabled join event staging as far as its places go; those
beyond are counted as lost, and the first loss sets CAPTURE_GAP (R151, R154, R155). -/
abbrev State.RecordsQueued (s t : State) (lists : List (List Record)) : Prop :=
  let allowed (l : List Record) : List Record := l.filter s.capture.settings.classes.allows
  (s.capture.running = false → t.capture.event = s.capture.event) ∧
  (s.capture.running = true → s.capture.event.records.length ≤ 8 →
    ∃ l, l.Perm (allowed lists.flatten) ∧ (∀ x ∈ lists, (allowed x).Sublist l) ∧
      t.capture.event.records = (s.capture.event.records ++ l).take 8 ∧
      let excess := s.capture.event.records.length + l.length - 8
      t.capture.event.lost =
        (if excess = 0 then s.capture.event.lost else min (s.capture.event.lost + excess) 65535) ∧
      (excess ≠ 0 → s.capture.event.lost = 0 → t.alert.latches.getLsbD 8 = true))

/-- What one event offers to the sequencer and to event staging. -/
abbrev State.HandedOut (s t : State) (os : List (List Occurrence)) (rs : List (List Record)) : Prop :=
  s.OccurrencesQueued t os ∧ s.RecordsQueued t rs

/-- What becomes of the ACCESS records offered, in the order given: in RUN and POST they join access staging as far
as its places go; those beyond are counted as lost, and the first loss sets CAPTURE_GAP (R148, R154, R155). -/
abbrev State.AccessQueued (s t : State) (l : List AccessRec) : Prop :=
  (s.capture.running = false → t.capture.access = s.capture.access) ∧
  (s.capture.running = true → s.capture.access.records.length ≤ 4 →
    t.capture.access.records = (s.capture.access.records ++ l.map Record.access).take 4 ∧
    let excess := s.capture.access.records.length + l.length - 4
    t.capture.access.lost =
      (if excess = 0 then s.capture.access.lost else min (s.capture.access.lost + excess) 65535) ∧
    (excess ≠ 0 → s.capture.access.lost = 0 → t.alert.latches.getLsbD 8 = true))

/-- Some window of the hit set has the action. -/
abbrev State.SomeHit (s : State) (hits : WindowSet) (action : WindowActions → Bool) : Prop :=
  ∃ k : Fin 16, hits.getLsbD k.val = true ∧ action s.windows[k].fields.actions = true

/-- The guard latches after an event that makes the reports given (R113): GUARD_HIT with a forced beat,
GUARD_LOCKED with LOCKED, GUARD_UNABLE with UNABLE or BLIND. -/
abbrev State.GuardLatched (s t : State) (reports : List GuardRec) : Prop :=
  t.alert.latches.getLsbD 1 =
    (s.alert.latches.getLsbD 1 || reports.any fun x => decide (1 ≤ x.forced)) ∧
  t.alert.latches.getLsbD 2 = (s.alert.latches.getLsbD 2 || reports.any fun x => x.locked) ∧
  t.alert.latches.getLsbD 3 = (s.alert.latches.getLsbD 3 || reports.any fun x => x.unable || x.blind)

/-- What an event that makes reports hands over (R113): a guard event and a GUARD record for each, beside the
occurrences and records given. -/
abbrev State.Reported (s t : State) (reports : List GuardRec) (os : List (List Occurrence))
    (rs : List (List Record)) : Prop :=
  s.GuardLatched t reports ∧
  s.HandedOut t (os ++ reports.map fun _ => [.guardEvent]) (reports.map (fun r => [.guard r]) ++ rs)

/-- The report that the closing account of a tracked WRITE makes (R111, R112): none without a forced beat, an
unprotected beat or blindness. -/
def reportOf (e : Entry) (a : Account) : Option GuardRec :=
  if 1 ≤ a.forced ∨ 1 ≤ a.unprotected ∨ a.blind ≠ .none then
    some
      { window := (List.finRange 16).find? fun k => a.contributing.getLsbD k.val
        bank := e.bank, row := e.row
        column := a.firstPosition.map fun i => beatColumn e.map e.len e.order e.column i
        lanes := a.laneUnion, forced := a.forced, unprotected := a.unprotected
        unable := decide (1 ≤ a.unprotected), blind := decide (a.blind ≠ .none)
        blocked := decide (a.blind = .block), untracked := false, locked := a.lockedSeen
        stamp := e.effectSlot }
  else none

/-! ### Entries: the effect slot and the hand-over -/

/-- The guard window gives lane `n` of nominal beat `i` of the burst (R103, R105). -/
abbrev WindowFields.GivesLane (w : WindowFields) (g : Burst) (i n : Nat) : Prop :=
  w.enable = true ∧ w.actions.guard = true ∧ w.kinds ≠ .read ∧ w.lanes.getLsbD n = true ∧
  w.low.toNat ≤ g.address i n ∧ g.address i n ≤ w.high.toNat

/-- Entry `e` becomes `e'` in its effect slot (R46, R94, R95, R105, R106): WAITING, with candidates, the hits of
windows without a data condition, the captured list present exactly when a candidate has CAPTURE-DATA or
CAPTURE-ALL-DATA is on, and for a WRITE its guard masks and a new account with locked shares, contributing set and
blind state. -/
abbrev State.EffectTaken (s : State) (e e' : Entry) : Prop :=
  e' =
    { e with
      phase := .waiting, satisfied := 0, candidates := candidatesOf s.windows e.kind e.burst
      hits := candidatesOf s.windows e.kind e.burst &&& ~~~conditional s.windows
      captured :=
        if s.capture.settings.captureAllData = true ∨ s.SomeHit e'.candidates (·.captureData) then some []
        else none
      guard := e'.guard, account := e'.account } ∧
  (e.kind = .read → e'.guard = e.guard ∧ e'.account = e.account) ∧
  (e.kind = .write → ∃ a : Account,
    e'.account = some a ∧ a.forced = 0 ∧ a.unprotected = 0 ∧ a.laneUnion = 0 ∧ a.firstPosition = none ∧
    a.lockedSeen = false ∧
    match e.burst with
    | some g =>
      e'.guard = guardMasks s.windows g ∧ a.blind = .none ∧ a.lockedShare.length = g.len.beats ∧
      (∀ i n, i < g.len.beats → n < 8 →
        ((a.lockedShare.getD i 0).getLsbD n = true ↔
          ∃ k : Fin 16, s.windows[k].locked = true ∧ s.windows[k].fields.GivesLane g i n)) ∧
      ∀ k : Fin 16, a.contributing.getLsbD k.val = true ↔
        ∃ i n, i < g.len.beats ∧ n < 8 ∧ s.windows[k].fields.GivesLane g i n
    | none =>
      let active := ∃ k : Fin 16,
        s.windows[k].fields.enable = true ∧ s.windows[k].fields.actions.guard = true ∧
        s.windows[k].fields.kinds ≠ .read
      e'.guard = List.replicate e.len.beats (if active ∧ s.blind = .block then 0xFF else 0) ∧
      a.lockedShare = List.replicate e.len.beats 0 ∧ a.contributing = 0 ∧
      a.blind = if active then (match s.blind with
        | .pass => .pass
        | .block => .block) else .none)

/-- The hits of an entry that are decided at its retirement (R97). -/
def State.lateOf (s : State) (e : Entry) : WindowSet :=
  e.candidates &&& conditional s.windows &&& e.satisfied

/-- A beat received for the entry is not yet forwarded: its account stays open (R111). -/
def State.beatHeld (s : State) (e : Entry) : Bool :=
  [s.fwd.rxWrite, s.fwd.txWrite].any fun h => h.any fun w => w.source.any fun x => x.1 == e.number

/-- The report of the entry's account at its retirement, if it closes then (R111). -/
def State.reportAt (s : State) (e : Entry) : Option GuardRec :=
  match e.account with
  | some a => if s.beatHeld e then none else reportOf e a
  | none => none

/-- The ACCESS record of a tracked entry (R148, R149): it carries the captured beats with their guard masks when the
entry has a captured list and CAPTURE-ALL-DATA is on or a hit has CAPTURE-DATA. -/
def State.accessOf (s : State) (o : RetireOutcome) (e : Entry) : AccessRec :=
  let hits := e.hits ||| s.lateOf e
  let data : Bool := decide (e.captured ≠ none ∧
    (s.capture.settings.captureAllData = true ∨ s.SomeHit hits (·.captureData)))
  { kind := e.kind, bank := e.bank, row := e.row, column := e.column, lenOrder := some (e.len, e.order)
    autoClose := e.autoClose, posted := e.posted, outcome := some o, doubtful := e.doubtful
    rowless := e.rowless, cutFlag := e.cutFlag, untracked := none, hits := hits, beatsSeen := e.beatsSeen
    data := data
    beats := if data then (e.captured.getD []).map fun b => (b, e.guard.getD b.position 0) else []
    stamp := e.effectSlot }

/-- The entries given are retired with the outcome given, in their order, and handed over (R53, R97, R98, R111 to
R113, R148): their late hits act, an ACCESS record is offered for each while CAPTURE-ALL is on and for each with a
hit that has CAPTURE, none for any other; their accounts close with their reports, or wait for a beat not yet
forwarded; the records given are offered beside. -/
abbrev State.HandedOver (s t : State) (es : List Entry) (o : RetireOutcome) (rs : List (List Record)) : Prop :=
  s.HitsActed t (es.map s.lateOf) ∧
  s.AccessQueued t
    ((es.filter fun e => decide (s.capture.settings.captureAll = true ∨
      s.SomeHit (e.hits ||| s.lateOf e) (·.capture))).map (s.accessOf o)) ∧
  t.waiting = s.waiting ++
    (es.filter fun e => e.account.isSome && s.beatHeld e).map
      (fun e => { e with hits := e.hits ||| s.lateOf e }) ∧
  s.Reported t (es.filterMap s.reportAt) (es.map fun e => s.seqHits (s.lateOf e)) rs

/-! ### Capture actions -/

/-- The capture state after the capture actions of one transition: START-CAPTURE, trigger, STOP-CAPTURE in
that order (R135, R143). -/
def captureStateAfter (a : StageActions) (postFill : BitVec 12) (st : CaptureState) : CaptureState :=
  let s1 := if a.startCapture ∧ (st = .off ∨ st = .stopped) then .run else st
  let s2 := if a.trigger ∧ s1 = .run then (if postFill = 0 then .stopped else .post) else s1
  if a.stopCapture ∧ (s2 = .run ∨ s2 = .post) then .stopped else s2

/-- A staging queue right after an entry into RUN, which finds it empty (R152, R156): in event staging the
SOFT-RESET record of the note while the channel class is on, then the GAP record of a lost count that is not 0. -/
def State.queueAtStart (s : State) (q : QueueId) : Staging :=
  { records :=
      (match q, s.capture.note with
       | .event, some stamp =>
         if s.capture.settings.classes.channel then [.channel .softReset stamp] else []
       | _, _ => []) ++
      (if (s.capture.queue q).lost = 0 then [] else [.gap q (s.capture.queue q).lost s.now])
    lost := 0 }

/-- The actions of one transition (R135, R137, R141 to R145, R152, R156): the capture state; the post counter,
loaded by a trigger that finds RUN; the note, cleared by an entry into RUN; the staging queues, filled by an entry
into RUN and emptied by an entry into STOPPED; the STAGE record, offered to the capture that the actions leave; the
pulse of the pin named; the SEQ_ALERT and TRIGGER latches. -/
abbrev State.ActionsRun (s t : State) (a : StageActions) (pin : PinNo) (record : Record) : Prop :=
  let c := s.capture
  let entered := a.startCapture = true ∧ c.running = false
  let after := captureStateAfter a c.settings.postFill c.state
  let staged (q : QueueId) : Staging :=
    let x := if entered then s.queueAtStart q else c.queue q
    if after = .stopped ∧ (c.running = true ∨ entered) then x.discard else x
  t.capture.state = after ∧
  t.capture.postCounter =
    (if a.trigger = true ∧ (c.state = .run ∨ entered) ∧ c.settings.postFill ≠ 0 then c.settings.postFill.toNat
     else c.postCounter) ∧
  t.capture.note = (if entered then none else c.note) ∧
  t.capture.store = c.store ∧ t.capture.writer = c.writer ∧
  (c.Inv →
    t.capture.access = staged .access ∧ t.capture.marker = staged .marker ∧
    State.RecordsQueued { s with capture := { c with state := after, event := staged .event } } t [[record]]) ∧
  (∀ p, t.cue p =
    if p = pin ∧ a.cue = true ∧ (s.cue p).function = .seqCue then
      { s.cue p with remaining := (s.cue p).width.toNat, active := true }
    else s.cue p) ∧
  t.alert.latches.getLsbD 6 = (s.alert.latches.getLsbD 6 || a.alert) ∧
  t.alert.latches.getLsbD 5 = (s.alert.latches.getLsbD 5 || a.trigger)

end Sys2Proof.Machine

namespace Sys2Proof

/-- The commands that program the part or reset its programming. -/
def Instr.programs : Instr → Bool
  | .powerOnResetAssert | .powerOnResetRelease _ | .softReset | .lockWindow _ | .setPins _ => true
  | .writeAddressMap _ _ | .writeBlindPolicy _ | .writeRule _ _ | .writeWindow _ _ => true
  | .writeStage _ _ | .writeTraceSetting _ _ | .writeAlertEnables _ | .writeCue _ _ => true
  | .writeTime _ | .writeItem _ _ _ => true
  | _ => false

/-- The commands that set the slot counter. -/
def Instr.setsClock : Instr → Bool
  | .slotAdvance | .timeClear | .powerOnResetAssert | .powerOnResetRelease _ => true
  | _ => false

/-- The commands that reach the shadow: the nine arrivals, the resets and the forget, an auto-close
completion, TIME CLEAR, and the passing of a slot. -/
def Instr.reachesShadow : Instr → Bool
  | .openBank _ _ | .readBurst _ _ _ | .writeBurst _ _ _ | .closeBank _ | .closeAll => true
  | .modeLoad _ _ | .sleepEnter | .sleepExit | .autoCloseCompletion _ | .slotAdvance => true
  | .memoryResetAssertion | .memoryResetRelease | .powerOnResetAssert | .powerOnResetRelease _ => true
  | .shadowForget | .softReset | .timeClear => true
  | _ => false

/-- The commands that reach tracker entries. -/
def Instr.reachesTracker : Instr → Bool
  | .openBank _ _ | .readBurst _ _ _ | .writeBurst _ _ _ | .closeBank _ | .closeAll => true
  | .writeBeatReceive _ _ _ _ | .readBeatReceive _ _ _ | .writeBeatForward | .voidSlotResolve => true
  | .effectSlot _ | .dataSlot _ | .retireDone _ | .slotAdvance => true
  | .memoryResetAssertion | .powerOnResetAssert | .powerOnResetRelease _ => true
  | .shadowForget | .softReset | .timeClear | .writeWindow _ _ | .writeItem _ _ _ => true
  | _ => false

/-- The commands that reach the complete records of the trace store. -/
def Instr.reachesStore : Instr → Bool
  | .arbiterPick | .unitWrite | .slotAdvance | .readTrace | .flush | .softReset => true
  | .powerOnResetAssert | .powerOnResetRelease _ => true
  | _ => false

/-- The commands that reach the checker: rules, counts, first-violation record, spacing state. -/
def Instr.reachesChecker : Instr → Bool
  | .openBank _ _ | .readBurst _ _ _ | .writeBurst _ _ _ | .closeBank _ | .closeAll => true
  | .refresh | .modeLoad _ _ | .sleepEnter | .sleepExit | .memoryResetAssertion => true
  | .powerOnResetAssert | .powerOnResetRelease _ | .shadowForget | .softReset | .timeClear => true
  | .clearCounts | .clearViolations | .writeRule _ _ | .writeItem _ _ _ => true
  | _ => false

/-- The commands that reach the windows: accesses, events at which an access takes effect or retires, the
requests on windows, and the resets. -/
def Instr.reachesWindows : Instr → Bool
  | .readBurst _ _ _ | .writeBurst _ _ _ | .writeBeatReceive _ _ _ _ | .voidSlotResolve => true
  | .effectSlot _ | .dataSlot _ | .retireDone _ | .slotAdvance => true
  | .memoryResetAssertion | .powerOnResetAssert | .powerOnResetRelease _ => true
  | .shadowForget | .softReset | .clearCounts | .lockWindow _ => true
  | .writeWindow _ _ | .writeItem _ _ _ => true
  | _ => false

/-- The commands that reach the forwarding path. -/
def Instr.reachesForwarding : Instr → Bool
  | .openBank _ _ | .readBurst _ _ _ | .writeBurst _ _ _ | .closeBank _ | .closeAll => true
  | .refresh | .modeLoad _ _ | .sleepEnter | .sleepExit | .undefinedEncoding _ => true
  | .forwardCommand | .writeBeatForward | .readBeatForward => true
  | .writeBeatReceive _ _ _ _ | .readBeatReceive _ _ _ | .slotAdvance => true
  | .memoryResetAssertion | .memoryResetRelease | .powerOnResetAssert | .powerOnResetRelease _ => true
  | _ => false

/-- The commands that reach the sequencer: events that may offer occurrences, its own events, ARM, DISARM, stage
writes, TIME CLEAR, and the resets. -/
def Instr.reachesSequencer : Instr → Bool
  | .openBank _ _ | .readBurst _ _ _ | .writeBurst _ _ _ | .closeBank _ | .closeAll => true
  | .refresh | .modeLoad _ _ | .sleepEnter | .sleepExit => true
  | .writeBeatReceive _ _ _ _ | .writeBeatForward | .voidSlotResolve => true
  | .effectSlot _ | .dataSlot _ | .retireDone _ | .slotAdvance => true
  | .occurrenceTake | .stageTimeout | .intervalEvent => true
  | .memoryResetAssertion | .powerOnResetAssert | .powerOnResetRelease _ => true
  | .shadowForget | .softReset | .timeClear | .arm | .disarm | .writeStage _ _ | .writeItem _ _ _ => true
  | _ => false

/-- The commands that reach trace capture: events that may offer records, its own events and requests, the
sequencer's, trace settings, and the resets. -/
def Instr.reachesCapture : Instr → Bool
  | .openBank _ _ | .readBurst _ _ _ | .writeBurst _ _ _ | .closeBank _ | .closeAll => true
  | .refresh | .modeLoad _ _ | .sleepEnter | .sleepExit => true
  | .writeBeatReceive _ _ _ _ | .writeBeatForward | .voidSlotResolve => true
  | .effectSlot _ | .dataSlot _ | .retireDone _ | .slotAdvance => true
  | .occurrenceTake | .stageTimeout | .intervalEvent | .arbiterPick | .unitWrite => true
  | .memoryResetAssertion | .memoryResetRelease | .powerOnResetAssert | .powerOnResetRelease _ => true
  | .readTrace | .captureStart | .captureStop | .flush | .arm | .shadowForget | .softReset => true
  | .writeTraceSetting _ _ | .writeItem _ _ _ => true
  | _ => false

/-- The commands that reach the alert unit: events that may set a latch, ACK, the enables, and the resets. -/
def Instr.reachesAlert : Instr → Bool
  | .openBank _ _ | .readBurst _ _ _ | .writeBurst _ _ _ | .closeBank _ | .closeAll => true
  | .refresh | .modeLoad _ _ | .sleepEnter | .sleepExit => true
  | .writeBeatReceive _ _ _ _ | .writeBeatForward | .voidSlotResolve => true
  | .effectSlot _ | .dataSlot _ | .retireDone _ | .slotAdvance => true
  | .occurrenceTake | .stageTimeout | .intervalEvent | .arbiterPick => true
  | .memoryResetAssertion | .memoryResetRelease | .powerOnResetAssert | .powerOnResetRelease _ => true
  | .captureStart | .arm | .ack _ | .shadowForget | .softReset => true
  | .writeAlertEnables _ | .writeItem _ _ _ => true
  | _ => false

/-- The commands that reach the cue pins: events at which windows hit, the sequencer's transitions, the pins'
own events and writes, the passing of a slot, and the resets. -/
def Instr.reachesCues : Instr → Bool
  | .readBurst _ _ _ | .writeBurst _ _ _ | .writeBeatReceive _ _ _ _ | .voidSlotResolve => true
  | .effectSlot _ | .dataSlot _ | .retireDone _ | .slotAdvance => true
  | .occurrenceTake | .stageTimeout | .pulseEnd _ | .cueInputChange _ _ => true
  | .memoryResetAssertion | .powerOnResetAssert | .powerOnResetRelease _ => true
  | .shadowForget | .softReset | .setPins _ | .writeCue _ _ | .writeItem _ _ _ => true
  | _ => false

/-- The commands that reach the service port: its frames and requests, the passing of a slot, in which its pins
may have moved, and power-on reset. -/
def Instr.reachesPort : Instr → Bool
  | .slotAdvance => true
  | .frameAborted _ | .frameDiscardedWaiting | .readItem _ _ | .readStatus | .readTrace | .ack _ => true
  | .captureStart | .captureStop | .flush | .arm | .disarm | .lockWindow _ | .clearCounts => true
  | .clearViolations | .timeClear | .shadowForget | .setPins _ | .softReset | .unknownRequest _ => true
  | .writeAddressMap _ _ | .writeBlindPolicy _ | .writeRule _ _ | .writeWindow _ _ => true
  | .writeStage _ _ | .writeTraceSetting _ _ | .writeAlertEnables _ | .writeCue _ _ => true
  | .writeTime _ | .writeItem _ _ _ | .powerOnResetAssert | .powerOnResetRelease _ => true
  | _ => false

end Sys2Proof
end

