-- ==== Sys2Proof/WellFormed.lean ====
section
/-! DEFINITION. Which terms of `Instr` are commands of the table: the checks the types do not carry. -/
namespace Sys2Proof

/-- A command is well formed when its operands fit its row: the indices of the items lie in their
groups (an index outside belongs to the row WRITE_ITEM), an aborted frame holds no complete request
(R185), an unknown request has an undefined code (R187), and a WRITE ITEM carries at least its
group's value bytes (R189; bytes beyond them are ignored, R182). -/
def Instr.wf : Instr → Bool
  | .frameAborted bytes => !Machine.requestComplete bytes
  | .unknownRequest code => (Machine.operandBytes code).isNone
  | .writeRule index _ => index.toNat < Machine.groupIndices 0x02
  | .writeWindow index _ => index.toNat < Machine.groupIndices 0x03
  | .writeStage index _ => index.toNat < Machine.groupIndices 0x04
  | .writeTraceSetting index _ => index.toNat < Machine.groupIndices 0x05
  | .writeCue index _ => index.toNat < Machine.groupIndices 0x07
  | .writeItem group _ value => Machine.writeBytes group ≤ value.length
  | .openBank _ _ | .readBurst _ _ _ | .writeBurst _ _ _ | .closeBank _ | .closeAll | .refresh
  | .modeLoad _ _ | .sleepEnter | .sleepExit | .undefinedEncoding _ | .forwardCommand
  | .memoryResetAssertion | .memoryResetRelease | .powerOnResetAssert | .powerOnResetRelease _
  | .writeBeatReceive _ _ _ _ | .readBeatReceive _ _ _ | .writeBeatForward | .readBeatForward
  | .voidSlotResolve | .effectSlot _ | .dataSlot _ | .retireDone _ | .autoCloseCompletion _
  | .occurrenceTake | .stageTimeout | .arbiterPick | .unitWrite | .pulseEnd _
  | .cueInputChange _ _ | .slotAdvance | .intervalEvent | .frameDiscardedWaiting | .readItem _ _
  | .readStatus | .readTrace | .ack _ | .captureStart | .captureStop | .flush | .arm | .disarm
  | .lockWindow _ | .clearCounts | .clearViolations | .timeClear | .shadowForget | .setPins _
  | .softReset | .writeAddressMap _ _ | .writeBlindPolicy _ | .writeAlertEnables _ | .writeTime _ => true

end Sys2Proof
end

