-- ==== Sys2Proof/Certificates/Slice0/Obligations.lean ====
section
/-! DEFINITION. The statements for the provers. Every conclusion that a command answers a next state is its
completion; the frames stand in the `Only…` statements and in the exact next states. -/
open Sys2Proof Sys2Proof.Machine

/-! ### The machine as a whole -/

/-- The command at the front of the queue runs with the queue's rest; with an empty queue the block idles
(log entries 1 and 13). -/
def Obligations.FrontOfQueueRuns : Prop :=
  ∀ (c : Instr) (rest : List Instr) (s : State),
    step { s with pending := c :: rest } = exec c { s with pending := rest } ∧
    step { s with pending := [] } = .next { s with pending := [] }

/-- The values the spec gives for power-on reset, in the first slot after the release of PORST_N: channel, shadow,
tracker, address map, blind policy, rules, windows, stages, capture with its settings, queues, lost counts and
rotating order, alert unit, cue pins, interval, service port and outputs. That this slot is the reset state, that
MRST and SSEL_N are released and the board's levels 0 in it, and that nothing waits from outside, is the model's
choice (log entry 1). -/
def Obligations.ResetHoldsTheSpecsValues : Prop :=
  let s := State.reset
  s.porst = false ∧ s.now = 0 ∧ s.chan = .live ∧
  (∀ k : Fin 16, s.banks[k] =
    { state := .unknown, openStamp := none, closeStamp := none, lastReadEffect := none
      lastWriteEnd := none }) ∧
  s.modes = { word0 := none, word1 := none, word2 := none } ∧
  s.tracker = [] ∧ s.waiting = [] ∧
  s.map = { order := .brc, rowBits := 16, colBits := 10 } ∧ s.blind = .pass ∧
  (∀ n : Fin 22, s.checker.rules[n].enabled = true ∧ s.checker.counts[n] = 0) ∧
  s.checker.rules.toList.map (fun r => (r.value.toNat, r.value2.toNat)) =
    [(4, 0), (2, 0), (10, 0), (4, 0), (2, 0), (4, 0), (3, 0), (1, 0), (40, 0), (4, 0), (20, 0), (4, 32)]
      ++ List.replicate 10 (0, 0) ∧
  s.checker.first = none ∧ s.checker.rolling = [] ∧ s.checker.readEnd = none ∧ s.checker.measure = none ∧
  (∀ k : Fin 16,
    s.windows[k].fields.enable = false ∧ s.windows[k].fields.low = 0 ∧ s.windows[k].fields.high = 0 ∧
    s.windows[k].fields.kinds = .both ∧ s.windows[k].fields.cond = none ∧
    s.windows[k].fields.condValue = 0 ∧ s.windows[k].fields.condMask = 0 ∧
    s.windows[k].fields.actions = WindowActions.none ∧ s.windows[k].fields.cuePin = 0 ∧
    s.windows[k].fields.lanes = 0xFF ∧ s.windows[k].locked = false ∧ s.windows[k].hitCount = 0 ∧
    s.windows[k].revised = false) ∧
  s.seq.state = .idle ∧ s.seq.stage = 0 ∧ s.seq.count = 0 ∧ s.seq.expiry = none ∧ s.seq.entry = false ∧
  s.seq.queue = [] ∧
  (∀ k : Fin 8,
    s.seq.stages[k].termA = .always ∧ s.seq.stages[k].join = .none ∧
    s.seq.stages[k].termB = .windowHit 0 ∧ s.seq.stages[k].n = 1 ∧ s.seq.stages[k].t = 0 ∧
    s.seq.stages[k].nextCondition = 0 ∧ s.seq.stages[k].nextTimeout = 0 ∧
    s.seq.stages[k].condActions = StageActions.none ∧ s.seq.stages[k].condPin = 0 ∧
    s.seq.stages[k].timeoutActions = StageActions.none ∧ s.seq.stages[k].timeoutPin = 0) ∧
  s.capture.state = .off ∧ s.capture.postCounter = 0 ∧ s.capture.full = false ∧ s.capture.note = none ∧
  s.capture.store = [] ∧ s.capture.writer = none ∧ s.capture.wrapped = false ∧
  (∀ q : QueueId, s.capture.queue q = { records := [], lost := 0 }) ∧
  s.capture.rotation = [.event, .access, .marker] ∧
  s.capture.settings.storeMode = .stop ∧ s.capture.settings.arbiterMode = .fixed ∧
  s.capture.settings.captureAll = false ∧ s.capture.settings.captureAllData = false ∧
  s.capture.settings.classes =
    { violation := false, guard := false, stage := false, cue := false, channel := false } ∧
  s.capture.settings.postFill = 1024 ∧ s.capture.settings.markers = false ∧
  s.alert.latches = 0 ∧ s.alert.globalOn = true ∧ s.alert.enables = 0 ∧ s.alert.asserted = false ∧
  (∀ p : Fin 4,
    s.cues[p].function = .port ∧ s.cues[p].out = false ∧ s.cues[p].latch = false ∧
    s.cues[p].width = 4 ∧ s.cues[p].remaining = 0 ∧ s.cues[p].active = false ∧
    s.cues[p].lastLevel = s.pinLevel (BitVec.ofFin p)) ∧
  s.interval = .p20 ∧ s.port = { frame := .idle, bits := [], waiting := none, reply := .filler } ∧ s.sdo = none ∧
  s.fwd.pins = { command := none, writeBeats := none, readBeats := none, mrst := true } ∧
  s.wires = [] ∧ s.pending = []

/-- The invariant of the block holds at reset. -/
def Obligations.InvariantHoldsAtReset : Prop := State.reset.Inv

/-- Every step keeps the tracker list: at most 8 entries, each once, in arrival order, at most one
STREAMING, beats and captured elements in step (R40, R41, R50, R51). -/
def Obligations.TrackerInvariantKept : Prop :=
  ∀ s t : State, s.TrackerInv → step s = .next t → t.TrackerInv

/-- Every step keeps trace capture: the store with the reserved record never holds more than 4096 units,
staging keeps its places and whole records, losses and the post counter their bounds (R140, R154 to
R159). -/
def Obligations.CaptureInvariantKept : Prop :=
  ∀ s t : State, s.TrackerInv → s.capture.Inv → step s = .next t → t.capture.Inv

/-- Every step keeps the sequencer: at most 16 queued occurrences, each of use to some stage, a count below
N in ARMED, everything empty in IDLE and TRIGGERED, and a legal table (R119, R120, R127, R132, R136). -/
def Obligations.SequencerInvariantKept : Prop :=
  ∀ s t : State, s.SequencerInv → step s = .next t → t.SequencerInv

/-- Every step keeps the channel state tied to MRST, and RESET HELD without rows, valid words or entries (R8,
R32, R33, R42); every step keeps the bounds of rules, counts, windows, address map, mode words and cue pins;
and every step keeps the service port's frame in order (R182 to R185). -/
def Obligations.ChannelAndSettingsInvariantsKept : Prop :=
  (∀ s t : State, s.ChannelInv → step s = .next t → t.ChannelInv) ∧
  (∀ s t : State, s.SettingsInv → step s = .next t → t.SettingsInv) ∧
  (∀ s t : State, s.port.Inv → step s = .next t → t.port.Inv)

/-! ### Frames -/

/-- Only the writes, LOCK WINDOW, SET PINS and the resets change what is programmed; every other command
completes and leaves it as it is. A slot's end carries out the request that waits (log entry 12), and is counted
with it. -/
def Obligations.OnlyProgrammingCommandsProgram : Prop :=
  ∀ (c : Instr) (s : State), s.Spares Instr.programs c → ∃ t, exec c s = .next t ∧ s.SameProgram t

/-- Only the passing of a slot, TIME CLEAR and power-on reset move the slot counter; no command but
power-on reset changes PORST_N; no meaning touches the queue of commands, and only the end of a slot, by its passing
or cut short by PORST_N, and the release of PORST_N take a list of what the port's pins did, one each (log entry
12). -/
def Obligations.OnlyClockCommandsMoveTime : Prop :=
  ∀ (c : Instr) (s t : State), exec c s = .next t →
    t.pending = s.pending ∧
    (c = .slotAdvance → t.wires = s.wires.tail) ∧
    (c = .powerOnResetAssert → t.wires = if s.porst then s.wires else s.wires.tail) ∧
    (∀ x, c = .powerOnResetRelease x → t.wires = if s.porst then s.wires.tail else s.wires) ∧
    (c ≠ .slotAdvance → c ≠ .powerOnResetAssert → (∀ x, c ≠ .powerOnResetRelease x) → t.wires = s.wires) ∧
    (c.setsClock = false → t.now = s.now) ∧
    (c ≠ .powerOnResetAssert → (∀ x, c ≠ .powerOnResetRelease x) → t.porst = s.porst)

/-- The shadow, the tracker, the checker, the windows, the forwarding path, the sequencer, trace capture and the
complete records of its store, the alert unit, the cue pins and the service port each change by their own
commands alone; a slot's end carries out the request that waits, and is counted with it (log entry 12). -/
def Obligations.OnlyTheirCommandsReachTheBlocks : Prop :=
  (∀ (c : Instr) (s t : State), s.Spares Instr.reachesShadow c → exec c s = .next t → s.SameShadow t) ∧
  (∀ (c : Instr) (s t : State), s.Spares Instr.reachesTracker c → exec c s = .next t → s.SameTracker t) ∧
  (∀ (c : Instr) (s t : State), exec c s = .next t →
     (s.Spares Instr.reachesChecker c → t.checker = s.checker) ∧
     (s.Spares Instr.reachesWindows c → t.windows = s.windows) ∧
     (s.Spares Instr.reachesForwarding c → t.fwd = s.fwd)) ∧
  (∀ (c : Instr) (s t : State), exec c s = .next t →
     (s.Spares Instr.reachesStore c → t.capture.store = s.capture.store) ∧
     (s.Spares Instr.reachesPort c → t.port = s.port)) ∧
  (∀ (c : Instr) (s t : State), exec c s = .next t →
     (s.Spares Instr.reachesSequencer c → t.seq = s.seq) ∧
     (s.Spares Instr.reachesCapture c → t.capture = s.capture) ∧
     (s.Spares Instr.reachesAlert c → t.alert = s.alert) ∧
     (s.Spares Instr.reachesCues c → t.cues = s.cues))

/-- A LOCKED window's fields and lock state are unchanged until power-on reset (R116): by every command; a
write is refused with LOCKED; a soft reset keeps the window whole and keeps the GUARD_LOCKED latch;
CLEAR COUNTS clears counter and mark; map and blind policy are refused with LOCKED; power-on reset gives
the default window. -/
def Obligations.LockedWindowIsFrozen : Prop :=
  ∀ (s : State) (k : Fin 16), s.porst = false → s.windows[k].locked = true →
    let locked : Out := .next (s.respond { status := .locked, data := [] })
    (∀ (c : Instr) (t : State), c ≠ .powerOnResetAssert → exec c s = .next t →
      t.windows[k].locked = true ∧ t.windows[k].fields = s.windows[k].fields) ∧
    (∀ v, s.Serves (.writeWindow (BitVec.ofNat 8 k.val) v) →
      exec (.writeWindow (BitVec.ofNat 8 k.val) v) s = locked) ∧
    (s.Serves .softReset → ∃ t, exec .softReset s = .next t ∧ t.windows[k] = s.windows[k] ∧
      t.alert.latches = s.alert.latches &&& 4) ∧
    (s.Serves .clearCounts → ∃ t, exec .clearCounts s = .next t ∧
      t.windows[k] = { s.windows[k] with hitCount := 0, revised := false }) ∧
    (∀ i v, s.Serves (.writeAddressMap i v) → exec (.writeAddressMap i v) s = locked) ∧
    (∀ v, s.Serves (.writeBlindPolicy v) → exec (.writeBlindPolicy v) s = locked) ∧
    ∃ t, exec .powerOnResetAssert s = .next t ∧ t.windows[k] = Window.default

/-- A filled first-violation record stays until CLEAR VIOLATIONS, soft reset or power-on reset, rule and hit
counts never fall but by CLEAR COUNTS, soft reset (unlocked windows) or power-on reset, and an alert latch
stays until ACK, soft reset or power-on reset (R82, R99, R167, R170). A slot's end carries out the request that
waits, and is counted with it (log entry 12). -/
def Obligations.FindingsStayUntilCleared : Prop :=
  ∀ (c : Instr) (s t : State), s.porst = false → c ≠ .powerOnResetAssert → s.SettingsInv →
    exec c s = .next t →
    let ran := s.performs c
    ((∀ x, .ack x ∉ ran) → .softReset ∉ ran → s.alert.latches &&& t.alert.latches = s.alert.latches) ∧
    (∀ f, s.checker.first = some f → .clearViolations ∉ ran → .softReset ∉ ran →
      t.checker.first = some f) ∧
    (.clearCounts ∉ ran → .softReset ∉ ran → ∀ n : Fin 22, s.checker.counts[n] ≤ t.checker.counts[n]) ∧
    (.clearCounts ∉ ran → ∀ k : Fin 16, .softReset ∉ ran ∨ s.windows[k].locked = true →
      s.windows[k].hitCount ≤ t.windows[k].hitCount)

/-! ### Commands on the channel -/

/-- OPEN in LIVE (R20, R47): from CLOSED or UNKNOWN the bank is OPEN on the row, from OPEN or CLOSING it is
UNKNOWN; the open stamp is the arrival, the other stamps and the other banks stay, the stamp joins the
rolling open list, and POSTED entries on the bank become DOUBTFUL. -/
def Obligations.OpenActs : Prop :=
  ∀ (s : State) (b : BankNo) (r : Row), s.Listens → s.chan = .live →
    ∃ t, exec (.openBank b r) s = .next t ∧
      t.bank b =
        { s.bank b with
          state := match (s.bank b).state with
            | .unknown => .opened r
            | .closed => .opened r
            | .opened _ => .unknown
            | .closing _ _ => .unknown
          openStamp := some s.now } ∧
      (∀ b', b' ≠ b → t.bank b' = s.bank b') ∧
      t.checker.rolling.getLast? = some s.now ∧
      t.modes = s.modes ∧ t.chan = .live ∧ t.waiting = s.waiting ∧ t.nextNumber = s.nextNumber ∧
      t.tracker = s.tracker.map fun e =>
        if e.phase = .posted ∧ e.bank = b then { e with doubtful := true } else e

/-- CLOSE and CLOSE ALL in LIVE (R21, R22, R47): the bank, or every bank, is CLOSED with close stamp the
arrival, whatever its state; the other stamps stay; POSTED entries reached become DOUBTFUL. -/
def Obligations.CloseActs : Prop :=
  ∀ (s : State), s.Listens → s.chan = .live →
    (∀ b : BankNo, ∃ t, exec (.closeBank b) s = .next t ∧
      t.bank b = { s.bank b with state := .closed, closeStamp := some s.now } ∧
      (∀ b', b' ≠ b → t.bank b' = s.bank b') ∧
      t.modes = s.modes ∧ t.chan = .live ∧ t.checker.rolling = s.checker.rolling ∧
      t.waiting = s.waiting ∧ t.nextNumber = s.nextNumber ∧
      t.tracker = s.tracker.map fun e =>
        if e.phase = .posted ∧ e.bank = b then { e with doubtful := true } else e) ∧
    ∃ t, exec .closeAll s = .next t ∧
      (∀ b, t.bank b = { s.bank b with state := .closed, closeStamp := some s.now }) ∧
      t.modes = s.modes ∧ t.chan = .live ∧ t.checker.rolling = s.checker.rolling ∧
      t.waiting = s.waiting ∧ t.nextNumber = s.nextNumber ∧
      t.tracker = s.tracker.map fun e => if e.phase = .posted then { e with doubtful := true } else e

/-- READ and WRITE in LIVE on the bank shadow (R23, R24): with words 0 and 1 VALID the access writes its
stamp whatever the bank's state, and with auto-close an OPEN bank becomes CLOSING with the auto-close
stamp of R24; without them an auto-close access leaves an OPEN bank UNKNOWN and writes no stamp. -/
def Obligations.AccessStampsItsBank : Prop :=
  ∀ (s : State) (kind : AccessKind) (b : BankNo) (col : Col) (ac : Bool), s.Listens → s.chan = .live →
    ∃ t, exec (Cmd.arrival (.access kind b col ac)) s = .next t ∧
      (∀ b', b' ≠ b → t.bank b' = s.bank b') ∧ t.modes = s.modes ∧ t.chan = .live ∧
      t.checker.rolling = s.checker.rolling ∧
      match s.modes.word0, s.modes.word1 with
      | some m0, some m1 =>
        let effect := s.now + m1.postedDelay.setWidth 48
        let slots : Slot := match m0.len with
          | .four => 2
          | .eight => 4
        let last := effect + m1.writeDelay.setWidth 48 + slots - 1
        (t.bank b).openStamp = (s.bank b).openStamp ∧ (t.bank b).closeStamp = (s.bank b).closeStamp ∧
        (t.bank b).lastReadEffect =
          (if kind = .read then some effect else (s.bank b).lastReadEffect) ∧
        (t.bank b).lastWriteEnd = (if kind = .write then some last else (s.bank b).lastWriteEnd) ∧
        (t.bank b).state =
          match (s.bank b).state, ac with
          | .opened row, true =>
            .closing row
              (match kind with
               | .read => effect + slots + (s.rule 4).value.setWidth 48
               | .write => last + (s.rule 5).value.setWidth 48)
          | st, _ => st
      | _, _ =>
        t.bank b =
          match (s.bank b).state, ac with
          | .opened _, true => { s.bank b with state := .unknown }
          | _, _ => s.bank b

/-- A READ or WRITE that finds LIVE, words 0 and 1 VALID and fewer than 8 entries joins the list as its
newest entry, filled from the command, the mode words and the bank before it (R5, R42, R43). With a posted delay it
is POSTED; without one its effect slot is taken at the arrival (R46, R95, R98, R105, R106): candidates, hits, guard
masks, account and captured list are set and the hits act at once. The order of what the arrival offers is free
(log entry 3). -/
def Obligations.AccessIsTracked : Prop :=
  ∀ (s : State) (kind : AccessKind) (b : BankNo) (col : Col) (ac : Bool) (m0 : ModeWord0) (m1 : ModeWord1),
    s.Listens → s.TrackerInv → s.chan = .live → s.modes.word0 = some m0 → s.modes.word1 = some m1 →
    s.tracker.length < 8 →
    let row : Option Row := match (s.bank b).state with
      | .opened r => some r
      | _ => none
    let effect : Slot := s.now + m1.postedDelay.setWidth 48
    let new : Entry :=
      { number := s.nextNumber, kind := kind, bank := b, row := row, column := col, len := m0.len
        order := m0.order, autoClose := ac, posted := m1.postedDelay != 0, effectSlot := effect
        dataSlot := effect + (match kind with
          | .read => m0.readDelay.setWidth 48
          | .write => m1.writeDelay.setWidth 48)
        map := s.map, phase := .posted, beatsSeen := 0, candidates := 0, hits := 0, satisfied := 0, guard := []
        doubtful := false, rowless := row.isNone, cutFlag := false, captured := none, account := none }
    let broken := brokenRules s (.access kind b col ac)
    let violation : List Occurrence := if broken = 0 then [] else [.violation broken]
    let violations : List Record := (members broken).map fun n => .violation n (.access kind b col ac) s.now
    ∃ t, exec (Cmd.arrival (.access kind b col ac)) s = .next t ∧ t.nextNumber = s.nextNumber + 1 ∧
      t.waiting = s.waiting ∧
      (m1.postedDelay ≠ 0 →
        t.tracker = s.tracker ++ [new] ∧ t.windows = s.windows ∧ t.cues = s.cues ∧
        s.HandedOut t [violation] [violations]) ∧
      (m1.postedDelay = 0 →
        ∃ e, t.tracker = s.tracker ++ [e] ∧ s.EffectTaken new e ∧ s.HitsActed t [e.hits] ∧
          s.HandedOut t [violation, s.seqHits e.hits] [violations])

/-- A READ or WRITE that finds the channel not LIVE, word 0 or 1 INVALID, or 8 entries, in that order,
creates no entry; an ACCESS record with the reason is offered while CAPTURE-ALL is on or a hit has CAPTURE, and none
otherwise (R42, R45, R148, R150). Its hits are the candidate windows without data condition, and act at once (R101).
An untracked WRITE is judged by the guard at once (R113, R114): with a row, L and order, a report when some nominal
beat has guard lanes, counting those beats unprotected; without them a blind report when an active guard window
exists. The order of what the arrival offers is free (log entry 3). -/
def Obligations.AccessIsUntracked : Prop :=
  ∀ (s : State) (kind : AccessKind) (b : BankNo) (col : Col) (ac : Bool) (reason : UntrackedReason),
    s.Listens →
    (if s.chan ≠ .live then some .state
     else if s.modes.word0 = none ∨ s.modes.word1 = none then some .modeUnset
     else if 8 ≤ s.tracker.length then some .full else none) = some reason →
    let row : Option Row := if s.chan = .live then
      match (s.bank b).state with
      | .opened r => some r
      | _ => none
      else none
    let lenOrder := s.modes.word0.map fun m => (m.len, m.order)
    let burst : Option Burst := match row, lenOrder with
      | some r, some (l, o) => some { map := s.map, bank := b, row := r, column := col, len := l, order := o }
      | _, _ => none
    let hits := candidatesOf s.windows kind burst &&& ~~~conditional s.windows
    let broken := brokenRules s (.access kind b col ac)
    let report : Option GuardRec := match kind, burst with
      | .read, _ => none
      | .write, some g =>
        match (guardMasks s.windows g).findIdx? fun m => m != 0 with
        | none => none
        | some i =>
          some
            { window := (List.finRange 16).find? fun k =>
                (contributors s.windows g).getLsbD k.val
              bank := b, row := row, column := some (beatColumn g.map g.len g.order g.column i)
              lanes := (guardMasks s.windows g).foldl (· ||| ·) 0
              forced := 0, unprotected := (guardMasks s.windows g).countP fun m => m != 0
              unable := true, blind := true, blocked := false, untracked := true
              locked := (lockedShares s.windows g).any fun m => m != 0
              stamp := s.now }
      | .write, none =>
        if ∃ k : Fin 16, s.windows[k].fields.activeGuard = true then
          some
            { window := none, bank := b, row := row, column := some col.toNat, lanes := 0, forced := 0
              unprotected := 0, unable := false, blind := true, blocked := false, untracked := true
              locked := false, stamp := s.now }
        else none
    let record : AccessRec :=
      { kind := kind, bank := b, row := row, column := col, lenOrder := lenOrder, autoClose := ac
        posted := s.modes.word1.any fun m => m.postedDelay != 0
        outcome := none, doubtful := false, rowless := row.isNone, cutFlag := false, untracked := some reason
        hits := hits, beatsSeen := 0, data := false, beats := [], stamp := s.now }
    ∃ t, exec (Cmd.arrival (.access kind b col ac)) s = .next t ∧ s.SameTracker t ∧
      s.HitsActed t [hits] ∧
      s.AccessQueued t
        (if s.capture.settings.captureAll = true ∨ s.SomeHit hits (·.capture) then [record] else []) ∧
      s.Reported t report.toList
        [if broken = 0 then [] else [.violation broken], s.seqHits hits]
        [(members broken).map fun n => .violation n (.access kind b col ac) s.now]

/-- MODE LOAD (R30): in LIVE it makes word 0, 1 or 2 VALID with its fields when all are in range, INVALID
otherwise; index 3 changes no word; the other words, the banks and the entries in flight stay; in ASLEEP
and RESET HELD no word changes.
SLEEP ENTER in LIVE gives ASLEEP, SLEEP EXIT in ASLEEP gives LIVE, neither changes the state otherwise;
REFRESH changes no channel state; none of the three changes a bank entry, a mode word or an entry in
flight (R27, R31, R55). -/
def Obligations.ModeLoadSleepAndRefreshAct : Prop :=
  (∀ (s : State) (i : BitVec 2) (v : BitVec 16), s.Listens →
     ∃ t, exec (.modeLoad i v) s = .next t ∧ t.banks = s.banks ∧ t.chan = s.chan ∧ s.SameTracker t ∧
       (s.chan ≠ .live → t.modes = s.modes) ∧
       (s.chan = .live →
         t.modes.word0 =
           (if i = 0 then
             if (v &&& 3).toNat ≤ 1 ∧ 4 ≤ ((v >>> 4) &&& 15).toNat ∧ ((v >>> 4) &&& 15).toNat ≤ 14 then
               some
                 { len := if v.getLsbD 0 then .eight else .four
                   order := if v.getLsbD 3 then .exchange else .linear
                   readDelay := (v >>> 4).setWidth 4 }
             else none
            else s.modes.word0) ∧
         t.modes.word1 =
           (if i = 1 then
             if 3 ≤ (v &&& 15).toNat ∧ (v &&& 15).toNat ≤ 13 ∧ ((v >>> 4) &&& 7).toNat ≤ 6 then
               some { writeDelay := v.setWidth 4, postedDelay := (v >>> 4).setWidth 3 }
             else none
            else s.modes.word1) ∧
         t.modes.word2 = (if i = 2 then some { maskOn := v.getLsbD 0 } else s.modes.word2))) ∧
  (∀ (s : State), s.Listens →
     (∃ t, exec .sleepEnter s = .next t ∧ t.banks = s.banks ∧ t.modes = s.modes ∧ s.SameTracker t ∧
       t.chan = (if s.chan = .live then .asleep else s.chan)) ∧
     (∃ t, exec .sleepExit s = .next t ∧ t.banks = s.banks ∧ t.modes = s.modes ∧ s.SameTracker t ∧
       t.chan = (if s.chan = .asleep then .live else s.chan)) ∧
     ∃ t, exec .refresh s = .next t ∧ s.SameShadow t ∧ s.SameTracker t)

/-- A command that arrives in RESET HELD, or in ASLEEP and is not SLEEP EXIT, is held for the D-side and
changes neither the shadow nor the tracker nor the checker's stamps of opens and reads (R9, R19, R31, R32,
R80); a pattern that is none of the nine kinds is held for the D-side and nothing else (R1, R9). -/
def Obligations.CommandsThatOnlyPass : Prop :=
  (∀ (s : State) (c : Cmd), s.Listens → s.chan = .resetHeld ∨ s.chan = .asleep ∧ c ≠ .sleepExit →
     ∃ t, exec c.arrival s = .next t ∧ t.fwd.rxCommand = some (.command c) ∧ s.SameShadow t ∧
       s.SameTracker t ∧ t.checker.rolling = s.checker.rolling ∧ t.checker.readEnd = s.checker.readEnd ∧
       t.checker.measure = none) ∧
  (∀ (s : State) (code : Nat), s.Listens →
     exec (.undefinedEncoding code) s =
       .next
         { s with
           fwd := { s.fwd with rxCommand := some (.undefinedCode code) }
           turns := { s.turns with command := true } })

/-! ### The checker -/

/-- What an arrival's violation produces (R81, R82, R83): each broken rule's count rises by 1 and stops at 255, the
VIOLATION latch is set, an empty first-violation record is filled, one violation occurrence with the set of
broken rules is offered, and one VIOLATION record for each of them, in ascending rule index; with no rule broken
none of this takes place; and the command is held for the D-side either way (R9). What else the arrival offers
(an access's hits and reports, a sleep change's record) is offered with it, each block's own in its order and the
blocks against each other in a free one (log entry 3). -/
def Obligations.ViolationIsCounted : Prop :=
  ∀ (s : State) (c : Cmd), s.Listens →
    let broken := brokenRules s c
    let records : List Record := (members broken).map fun n => .violation n c s.now
    ((members broken).Pairwise (· < ·) ∧ ∀ n : Fin 22, n ∈ members broken ↔ broken.getLsbD n.val = true) ∧
    ∃ t, exec c.arrival s = .next t ∧ t.fwd.rxCommand = some (.command c) ∧
      t.checker.rules = s.checker.rules ∧
      (∀ n : Fin 22, t.checker.counts[n] =
        if broken.getLsbD n.val then min (s.checker.counts[n] + 1) 255 else s.checker.counts[n]) ∧
      t.alert.latches.getLsbD 0 = (s.alert.latches.getLsbD 0 || broken != 0) ∧
      t.checker.first =
        (match s.checker.first with
        | some f => some f
        | none =>
          if broken = 0 then none
          else some { cmd := c, chan := s.chan, rules := broken, stamp := s.now }) ∧
      s.HandedOut t
        [if broken = 0 then [] else [.violation broken], (s.trackArrival c).2.occurrences]
        [records, (s.trackArrival c).2.records,
          match c, s.chan with
          | .sleepEnter, .live => [.channel .sleepEnter s.now]
          | .sleepExit, .asleep => [.channel .sleepExit s.now]
          | _, _ => []] ∧
      (s.capture.running = true → s.capture.settings.classes.violation = true →
        (s.trackArrival c).2.records = [] → c ≠ .sleepEnter → c ≠ .sleepExit →
        s.capture.event.records.length + records.length ≤ 8 →
        t.capture.event.records = s.capture.event.records ++ records)

/-- The pending measure (R72): at each arrival, in any channel state, a pending measure is judged under C9,
C10 or C11 by its kind, then removed, then set by a REFRESH or MODE LOAD taken in LIVE or a SLEEP EXIT
taken in ASLEEP. A channel reset removes it. -/
def Obligations.NextCommandIsMeasured : Prop :=
  (∀ (s : State) (c : Cmd), s.Listens →
    (∀ n : Fin 3, ((brokenRules s c).getLsbD (8 + n.val) = true ↔
      (s.checker.rules[8 + n.val]).enabled = true ∧
      ∃ kind stamp, s.checker.measure = some (kind, stamp) ∧
        kind = (match n with
          | 0 => .refresh
          | 1 => .modeLoad
          | 2 => .sleepExit) ∧
        (s.now - stamp).toInt < ((s.checker.rules[8 + n.val]).value.toNat : Int))) ∧
    ∃ t, exec c.arrival s = .next t ∧
      t.checker.measure =
        match c, s.chan with
        | .refresh, .live => some (.refresh, s.now)
        | .modeLoad _ _, .live => some (.modeLoad, s.now)
        | .sleepExit, .asleep => some (.sleepExit, s.now)
        | _, _ => none) ∧
  ∀ s : State, s.porst = false → s.fwd.mrst = false → s.turns.mrst = false →
    ∃ t, exec .memoryResetAssertion s = .next t ∧ t.checker.measure = none

/-- The rolling open list (R74): at an OPEN in LIVE the stamps less than a - W + 1 go, C12 is broken when it
is enabled and K or more remain, and the arrival is appended, the oldest of 8 going first; broken or not,
enabled or not. -/
def Obligations.OpenWindowRolls : Prop :=
  ∀ (s : State) (b : BankNo) (r : Row), s.Listens → s.chan = .live →
    let kept := s.checker.rolling.filter fun x =>
      ¬ (0 < (s.now - (s.rule 11).value2.setWidth 48 + 1 - x).toInt)
    ((brokenRules s (.openBank b r)).getLsbD 11 = true ↔
      (s.rule 11).enabled = true ∧ (s.rule 11).value.toNat ≤ kept.length) ∧
    ∃ t, exec (.openBank b r) s = .next t ∧
      t.checker.rolling = (if 8 ≤ kept.length then kept.tail else kept) ++ [s.now]

/-- The rules that no other statement judges, each broken exactly as said and while its enable is ON: the spacing
rules C1 to C8 and the sequence rules Q1 to Q10 (R66, R68 to R71, R75 to R80). C2 and C7 measure from the latest
stamp, here said of a stamp that every other one lies before; where no stamp is later than all others the
choice is the model's (log entry 24). The read data end stamp that C8 reads (R67): a READ in LIVE with words 0
and 1 VALID sets it to the later of the held and the new value (exactly 2^47 slots apart, to the new one, log entry
24); no other arrival changes it. -/
def Obligations.RulesAreJudged : Prop :=
  (∀ (s : State) (c : Cmd),
     ((brokenRules s c).getLsbD 0 = true ↔
       (s.rule 0).enabled = true ∧ s.chan = .live ∧
       ∃ kind b col ac row stamp m0 m1,
         c = .access kind b col ac ∧ (s.bank b).state = .opened row ∧
         (s.bank b).openStamp = some stamp ∧ s.modes.word0 = some m0 ∧ s.modes.word1 = some m1 ∧
         (s.now + m1.postedDelay.setWidth 48 - stamp).toInt < ((s.rule 0).value.toNat : Int))) ∧
  (∀ (s : State) (b : BankNo) (r : Row),
     ((∀ b', b' ≠ b → (s.bank b').openStamp = none) →
       (brokenRules s (.openBank b r)).getLsbD 1 = false) ∧
     (∀ b' x, b' ≠ b → (s.bank b').openStamp = some x →
       (∀ b'' y, b'' ≠ b → (s.bank b'').openStamp = some y → y = x ∨ 0 < (x - y).toInt) →
       ((brokenRules s (.openBank b r)).getLsbD 1 = true ↔
         (s.rule 1).enabled = true ∧ s.chan = .live ∧ (s.now - x).toInt < ((s.rule 1).value.toNat : Int)))) ∧
  (∀ (s : State) (c : Cmd),
     ((brokenRules s c).getLsbD 1 = true → ∃ b r, c = .openBank b r) ∧
     ((brokenRules s c).getLsbD 2 = true ↔
       (s.rule 2).enabled = true ∧ s.chan = .live ∧
       ∃ b stamp, (c = .closeBank b ∨ c = .closeAll) ∧ (s.bank b).row.isSome = true ∧
         (s.bank b).openStamp = some stamp ∧ (s.now - stamp).toInt < ((s.rule 2).value.toNat : Int)) ∧
     ((brokenRules s c).getLsbD 3 = true ↔
       (s.rule 3).enabled = true ∧ s.chan = .live ∧
       ∃ b r stamp, c = .openBank b r ∧ (s.bank b).closeStamp = some stamp ∧
         (s.now - stamp).toInt < ((s.rule 3).value.toNat : Int)) ∧
     ((brokenRules s c).getLsbD 4 = true ↔
       (s.rule 4).enabled = true ∧ s.chan = .live ∧
       ∃ b stamp, (c = .closeBank b ∨ c = .closeAll) ∧ (s.bank b).row.isSome = true ∧
         (s.bank b).lastReadEffect = some stamp ∧ (s.now - stamp).toInt < ((s.rule 4).value.toNat : Int)) ∧
     ((brokenRules s c).getLsbD 5 = true ↔
       (s.rule 5).enabled = true ∧ s.chan = .live ∧
       ∃ b stamp, (c = .closeBank b ∨ c = .closeAll) ∧ (s.bank b).row.isSome = true ∧
         (s.bank b).lastWriteEnd = some stamp ∧ (s.now - stamp).toInt < ((s.rule 5).value.toNat : Int))) ∧
  (∀ (s : State) (b : BankNo) (col : Col) (ac : Bool),
     ((s.modes.word0 = none ∨ s.modes.word1 = none ∨ ∀ b', (s.bank b').lastWriteEnd = none) →
       (brokenRules s (.access .read b col ac)).getLsbD 6 = false) ∧
     (∀ b' x m0 m1, s.modes.word0 = some m0 → s.modes.word1 = some m1 →
       (s.bank b').lastWriteEnd = some x →
       (∀ b'' y, (s.bank b'').lastWriteEnd = some y → y = x ∨ 0 < (x - y).toInt) →
       ((brokenRules s (.access .read b col ac)).getLsbD 6 = true ↔
         (s.rule 6).enabled = true ∧ s.chan = .live ∧
         (s.now + m1.postedDelay.setWidth 48 - x).toInt < ((s.rule 6).value.toNat : Int)))) ∧
  (∀ (s : State) (c : Cmd),
     ((brokenRules s c).getLsbD 6 = true → ∃ b col ac, c = .access .read b col ac) ∧
     ((brokenRules s c).getLsbD 7 = true ↔
       (s.rule 7).enabled = true ∧ s.chan = .live ∧
       ∃ b col ac m0 m1 stamp, c = .access .write b col ac ∧ s.modes.word0 = some m0 ∧
         s.modes.word1 = some m1 ∧ s.checker.readEnd = some stamp ∧
         (s.now + m1.postedDelay.setWidth 48 + m1.writeDelay.setWidth 48 - stamp).toInt <
           ((s.rule 7).value.toNat : Int)) ∧
     ((brokenRules s c).getLsbD 12 = true ↔
       (s.rule 12).enabled = true ∧ s.chan = .live ∧
       ∃ kind b col ac, c = .access kind b col ac ∧
         ((s.bank b).state = .closed ∨ ∃ r x, (s.bank b).state = .closing r x)) ∧
     ((brokenRules s c).getLsbD 13 = true ↔
       (s.rule 13).enabled = true ∧ s.chan = .live ∧
       ∃ b r, c = .openBank b r ∧ ((s.bank b).row).isSome = true) ∧
     ((brokenRules s c).getLsbD 14 = true ↔
       (s.rule 14).enabled = true ∧ s.chan = .live ∧
       (c = .refresh ∨ (∃ i v, c = .modeLoad i v) ∨ c = .sleepEnter) ∧
       ∃ b, ((s.bank b).row).isSome = true) ∧
     ((brokenRules s c).getLsbD 15 = true ↔
       (s.rule 15).enabled = true ∧ s.chan = .live ∧
       ∃ e ∈ s.tracker, e.phase = .posted ∧
         (c = .closeAll ∨ c = .closeBank e.bank ∨ ∃ r, c = .openBank e.bank r)) ∧
     ((brokenRules s c).getLsbD 16 = true ↔
       (s.rule 16).enabled = true ∧ s.chan = .live ∧ s.tracker.length < 8 ∧
       ∃ kind b col ac m0 m1, c = .access kind b col ac ∧ s.modes.word0 = some m0 ∧
         s.modes.word1 = some m1 ∧
         let d : Slot := s.now + m1.postedDelay.setWidth 48 + (match kind with
           | .read => m0.readDelay.setWidth 48
           | .write => m1.writeDelay.setWidth 48)
         ∃ e ∈ s.tracker,
           ((e.dataSlot - d).toInt < (m0.len.beats / 2 : Nat) ∧
             (d - e.dataSlot).toInt < (e.len.beats / 2 : Nat)) ∧
           ¬ (e.kind = kind ∧ e.len = .eight ∧ e.autoClose = false ∧ d = e.dataSlot + 2)) ∧
     ((brokenRules s c).getLsbD 17 = true ↔
       (s.rule 17).enabled = true ∧ s.chan = .live ∧
       ∃ i v, c = .modeLoad i v ∧
         ((i = 0 ∧ modeWord0Of v = none) ∨ (i = 1 ∧ modeWord1Of v = none) ∨ i = 3)) ∧
     ((brokenRules s c).getLsbD 18 = true ↔
       (s.rule 18).enabled = true ∧ s.chan = .live ∧ (∃ i v, c = .modeLoad i v) ∧ s.tracker ≠ []) ∧
     ((brokenRules s c).getLsbD 19 = true ↔
       (s.rule 19).enabled = true ∧
       (s.chan = .asleep ∧ c ≠ .sleepExit ∨ s.chan = .live ∧ c = .sleepExit)) ∧
     ((brokenRules s c).getLsbD 20 = true ↔ (s.rule 20).enabled = true ∧ s.chan = .resetHeld) ∧
     ((brokenRules s c).getLsbD 21 = true ↔
       (s.rule 21).enabled = true ∧ s.chan = .live ∧ c = .sleepEnter ∧ s.tracker ≠ [])) ∧
  ∀ (s : State) (c : Cmd), s.Listens →
    ∃ t, exec c.arrival s = .next t ∧
      ((∀ b col ac, c ≠ .access .read b col ac) ∨ s.chan ≠ .live ∨ s.modes.word0 = none ∨
        s.modes.word1 = none → t.checker.readEnd = s.checker.readEnd) ∧
      (∀ b col ac m0 m1, c = .access .read b col ac → s.chan = .live → s.modes.word0 = some m0 →
        s.modes.word1 = some m1 →
        let new : Slot := s.now + m1.postedDelay.setWidth 48 + m0.readDelay.setWidth 48 +
          BitVec.ofNat 48 (m0.len.beats / 2)
        t.checker.readEnd =
          match s.checker.readEnd with
          | none => some new
          | some held => if 0 < (held - new).toInt then some held else some new)

/-! ### Reset lines, auto-close, forwarding -/

/-- A memory reset assertion and release (R32, R33, R38, R56): the assertion gives RESET HELD, every bank CLOSED
without stamps, every word INVALID, an empty tracker and rolling list and the MEMRESET latch, every entry retires
ABANDONED and is handed over as at any retirement (R53, R97, R111, R148), and a MEMRESET-ON record is offered; the
release gives LIVE, leaves banks and words and offers a MEMRESET-OFF record. The order of what the assertion offers
is free (log entry 3). -/
def Obligations.MemoryResetActs : Prop :=
  ∀ (s : State), s.porst = false → s.turns.mrst = false →
    (s.fwd.mrst = false → ∃ t, exec .memoryResetAssertion s = .next t ∧
      t.chan = .resetHeld ∧ t.fwd = { s.fwd with mrst := true } ∧
      (∀ b, t.bank b =
        { state := .closed, openStamp := none, closeStamp := none, lastReadEffect := none
          lastWriteEnd := none }) ∧
      t.modes = { word0 := none, word1 := none, word2 := none } ∧
      t.tracker = [] ∧ t.checker.rolling = [] ∧ t.checker.readEnd = none ∧ t.checker.measure = none ∧
      t.checker.counts = s.checker.counts ∧ t.checker.first = s.checker.first ∧
      t.alert.latches.getLsbD 9 = true ∧
      s.HandedOver t s.tracker .abandoned [[.channel .memresetOn s.now]]) ∧
    (s.fwd.mrst = true → s.ChannelInv → ∃ t, exec .memoryResetRelease s = .next t ∧
      t.chan = .live ∧ t.fwd = { s.fwd with mrst := false } ∧ t.banks = s.banks ∧ t.modes = s.modes ∧
      s.SameTracker t ∧ t.checker = s.checker ∧ t.seq = s.seq ∧
      s.RecordsQueued t [[.channel .memresetOff s.now]])

/-- Power-on reset (R13, R34, R184, R192): the assertion gives the power-on values with the slot counter at 0, D-side
MRST asserted, the port's frame discarded and SDO at high impedance; after the release the channel is LIVE with
every bank UNKNOWN, or, with MRST sampled asserted in the first slot, RESET HELD with every bank CLOSED and
MEMRESET set; the cue pins' levels are those sampled in the first slot (R176). A frame whose SSEL_N is low at the
release is ignored, with SDO at high impedance, until SSEL_N rises; the port takes what its pins do from the release
until the first slot begins, and a request complete by then waits into that slot (SlotPassesAndForwards says how it
takes effect there). While PORST_N is asserted nothing is sampled: every command but the release leaves the state as
it is, and what the port's pins do is ignored: the list of the slot cut short is dropped, and a SLOT_ADVANCE drops one
more (how a queue says so, and that the release takes one, is log entry 12). The values of a pin's level while nothing
is sampled, and that the release carries the levels of the first slot, are the model's (log entries 1 and 6). -/
def Obligations.PowerOnResetActs : Prop :=
  ((∀ (s : State), s.porst = false → ∃ t, exec .powerOnResetAssert s = .next t ∧
     t.porst = true ∧ t.now = 0 ∧ t.chan = .live ∧ t.tracker = [] ∧ t.waiting = [] ∧
     (∀ b, t.bank b = Bank.blank .unknown) ∧ t.modes = Modes.invalid ∧ t.checker = Checker.default ∧
     (∀ k : Fin 16, t.windows[k] = Window.default) ∧ t.map = AddrMap.default ∧ t.blind = .pass ∧
     t.seq = Sequencer.default ∧ t.capture = Capture.default ∧ t.alert = Alert.default ∧
     (∀ p : Fin 4, t.cues[p] = Cue.default false) ∧ (∀ p, t.cueDrive p = none) ∧
     t.interval = .p20 ∧ t.port = Port.ready ∧ t.sdo = none ∧ t.wires = s.wires.tail ∧
     t.fwd.pins = Outputs.idle true ∧
     t.fwd.rxCommand = none ∧ t.fwd.txCommand = none ∧ t.fwd.txWrite = none ∧ t.fwd.txRead = none) ∧
   ∀ (s : State) (mrst : Bool) (pins : BitVec 4) (select : Bool), s.porst = true →
     ∃ t, exec (.powerOnResetRelease { mrst := mrst, pins := pins, select := select }) s = .next t ∧
       t.porst = false ∧ t.now = 0 ∧
       t.modes = Modes.invalid ∧ t.tracker = [] ∧ t.fwd.pins.mrst = true ∧ t.fwd.mrst = mrst ∧
       (∀ p : Fin 4, t.cues[p] = Cue.default (pins.getLsbD p.val)) ∧
       (let released : Port :=
          { frame := if select then .ignored else .idle, bits := [], waiting := none, reply := .filler }
        t.port = (s.wires.headD []).foldl Port.wire released ∧ t.wires = s.wires.tail ∧
        (t.port = released → t.sdo = none) ∧
        (∀ w, released.wire w =
          if w = .deselect ∨ w = .select ∧ select = false then
            { released with frame := if w = .deselect then .idle else .request [] }
          else released) ∧
        ∀ l : List Byte, select = false → s.wires.headD [] = .select :: l.flatMap wireOfByte →
          requestComplete l = true → (∀ k, k < l.length → requestComplete (l.take k) = false) →
          t.port = { frame := .turnaround, bits := [], waiting := requestOf l, reply := .due } ∧
          (requestOf l).isSome = true) ∧
       (mrst = false → t.chan = .live ∧ (∀ b, t.bank b = Bank.blank .unknown) ∧ t.alert.latches = 0) ∧
       (mrst = true → t.chan = .resetHeld ∧ (∀ b, t.bank b = Bank.blank .closed) ∧
         t.alert.latches = BitVec.twoPow 10 9)) ∧
  (∀ (c : Instr) (s : State), s.porst = true → (∀ x, c ≠ .powerOnResetRelease x) →
     exec c s = .next (if c = .slotAdvance then { s with wires := s.wires.tail } else s))

/-- An auto-close completion (R25): in the slot its stamp names, the entry becomes CLOSED with close stamp that
slot, and nothing else changes. The model's own choices: a completion command that is not due leaves the state
(log entry 4), and a slot that ends takes those due in it that no command took, before the request that waits, if
any (log entry 2). -/
def Obligations.AutoCloseCompletes : Prop :=
  ∀ (s : State) (b : BankNo), s.porst = false →
    (∀ row, (s.bank b).state = .closing row s.now →
      exec (.autoCloseCompletion b) s =
        .next (s.setBank b { s.bank b with state := .closed, closeStamp := some s.now }) ∧
      ((∀ w, s.port.waiting = some w → w.reachesShadow = false) →
        ∃ t, exec .slotAdvance s = .next t ∧
          t.bank b = { s.bank b with state := .closed, closeStamp := some s.now })) ∧
    ((∀ row, (s.bank b).state ≠ .closing row s.now) → exec (.autoCloseCompletion b) s = .next s)

/-- The passing of a slot (R8, R9, R11, R178): the counter advances by 1, what was received is due on the other
side, what was due has been driven (a write beat with its lanes forced by R11), and D-side MRST takes the level
sampled. The command and the read beats received in the slot before are driven as received (R9).
The service port (R182 to R184): a request that waits takes effect in the slot, after its other events, exactly as
its row would; then the port takes what happened on its pins in the slot, so that a request complete in it takes
effect in the next one. That it is the last event of a slot whose queue does not name it, and `turns`, `fwd.ended`
and `wires`, are the model's own (log entries 2, 4, 12 and 20). -/
def Obligations.SlotPassesAndForwards : Prop :=
  (∀ (s : State), s.porst = false →
     (∀ w, s.fwd.txCommand = some w →
       exec .forwardCommand s =
         .next
           { s with
             fwd := { s.fwd with txCommand := none, pins := { s.fwd.pins with command := some w } } }) ∧
     (∀ d, s.fwd.txRead = some d →
       exec .readBeatForward s =
         .next
           { s with
             fwd := { s.fwd with txRead := none, pins := { s.fwd.pins with readBeats := some d } } })) ∧
  (∀ (s : State), s.porst = false →
     let driven (h : HeldBeat) : WriteBeat :=
       { data := h.beat.data
         mask := if s.modes.word2 = some { maskOn := true } then h.beat.mask ||| h.guard else h.beat.mask }
     ∃ t, exec .slotAdvance s = .next t ∧ t.turns = Turns.fresh ∧ t.wires = s.wires.tail ∧
       t.fwd.txCommand = s.fwd.rxCommand ∧ t.fwd.txWrite = s.fwd.rxWrite ∧ t.fwd.txRead = s.fwd.rxRead ∧
       t.fwd.rxCommand = none ∧ t.fwd.rxWrite = none ∧ t.fwd.rxRead = none ∧
       t.fwd.pins = { command := none, writeBeats := none, readBeats := none, mrst := s.fwd.mrst } ∧
       t.fwd.mrst = s.fwd.mrst ∧
       t.fwd.ended =
         { command := s.fwd.txCommand <|> s.fwd.pins.command
           writeBeats := (s.fwd.txWrite.map fun h => (driven h.first, driven h.second)) <|> s.fwd.pins.writeBeats
           readBeats := s.fwd.txRead <|> s.fwd.pins.readBeats
           mrst := s.fwd.pins.mrst } ∧
       (s.port.waiting = none → t.now = s.now + 1 ∧ t.chan = s.chan ∧ t.modes = s.modes ∧
         t.port = (s.wires.headD []).foldl Port.wire s.port)) ∧
  (∀ (s : State) (l : List Byte) (c : Instr), s.porst = false → s.port.waiting = some c →
     requestOf l = some c →
     ∃ v, exec c s.owedEvents = .next v ∧ v.port.waiting = none ∧ v.pending = s.pending ∧ v.wires = s.wires ∧
       exec .slotAdvance s = .next v.takeEdges.takeWires.openSlot ∧
       v.takeEdges.takeWires.openSlot.port = (s.wires.headD []).foldl Port.wire v.port)

/-- A forwarded write beat differs from the received one only in forced mask lanes (R11): its data passes
unchanged, its mask is the received mask OR the guard lanes it carries when word 2 is VALID with mask enable
ON, and the received mask otherwise.
The guard counts what it drives (R108): of the two beats forwarded for a WRITE in the list, those with guard
lanes join the forced beats when word 2 is VALID with mask enable ON and the unprotected beats otherwise,
their lanes join the union, and the first of them gives the first guarded position; the same for a retired WRITE
whose account waits. With its last beat forwarded the waiting account closes (R111): its entry is gone, and with
a forced or unprotected beat or blindness it makes its report, a GUARD record and a guard event with the latches
of R113; while a beat of it is still to come it waits on and reports nothing. -/
def Obligations.WriteBeatsAreForwardedAndCounted : Prop :=
  (∀ (s : State) (h : HeldWrite), s.porst = false → s.fwd.txWrite = some h →
     ∃ t b0 b1, exec .writeBeatForward s = .next t ∧ t.fwd.pins.writeBeats = some (b0, b1) ∧
       t.fwd.txWrite = none ∧ t.fwd.pins.command = s.fwd.pins.command ∧
       t.fwd.pins.readBeats = s.fwd.pins.readBeats ∧ t.fwd.rxWrite = s.fwd.rxWrite ∧
       b0.data = h.first.beat.data ∧ b1.data = h.second.beat.data ∧
       (if s.modes.word2 = some { maskOn := true } then
         b0.mask = h.first.beat.mask ||| h.first.guard ∧ b1.mask = h.second.beat.mask ||| h.second.guard
        else b0.mask = h.first.beat.mask ∧ b1.mask = h.second.beat.mask) ∧
       s.SameShadow t ∧ t.now = s.now) ∧
  (∀ (s : State) (h : HeldWrite) (n i : Nat) (e : Entry) (a : Account), s.porst = false →
     s.fwd.txWrite = some h → h.source = some (n, i) → e.account = some a →
     (s.entry? n = some e ∨ s.entry? n = none ∧ s.waiting.find? (fun x => x.number == n) = some e) →
     let g0 := h.first.guard
     let g1 := h.second.guard
     let count := (if g0 = 0 then 0 else 1) + (if g1 = 0 then 0 else 1)
     let more := match s.fwd.rxWrite with
       | some w => w.source.any fun x => x.1 == n
       | none => false
     ∃ t a', exec .writeBeatForward s = .next t ∧
       (s.entry? n = some e → t.entry? n = some { e with account := some a' }) ∧
       (s.entry? n = none → more = true →
         t.waiting.find? (fun x => x.number == n) = some { e with account := some a' } ∧
         t.seq = s.seq ∧ t.capture = s.capture ∧ t.alert = s.alert) ∧
       (s.entry? n = none → more = false →
         t.waiting = s.waiting.filter (fun x => x.number ≠ n) ∧ s.Reported t (reportOf e a').toList [] []) ∧
       a'.forced = a.forced + (if s.modes.word2 = some { maskOn := true } then count else 0) ∧
       a'.unprotected = a.unprotected + (if s.modes.word2 = some { maskOn := true } then 0 else count) ∧
       a'.laneUnion = a.laneUnion ||| g0 ||| g1 ∧
       a'.firstPosition =
         (match a.firstPosition with
          | some p => some p
          | none => if g0 ≠ 0 then some i else if g1 ≠ 0 then some (i + 1) else none) ∧
       (a'.lockedSeen = true ↔ a.lockedSeen = true ∨ g0 ≠ 0 ∧ a.lockedShare.getD i 0 ≠ 0 ∨
         g1 ≠ 0 ∧ a.lockedShare.getD (i + 1) 0 ≠ 0) ∧
       a'.lockedShare = a.lockedShare ∧ a'.contributing = a.contributing ∧ a'.blind = a.blind)

/-! ### Beats and tracker events -/

/-- Write beats (R10, R12, R50, R51): once the slot's holder is settled, beats that find a WRITE holding the
slot are its next two, captured as received when its list is present, and carry its guard lanes; other
write beats are stray and carry none; the D-side beats of the slot are not forwarded and not passed to the
tracker, whichever side's were received first: a READ that took them in this slot has them no more. That the
holder is settled in this event, one pair of beats a slot, and that a READ retired with the slot's D-side beats
fixes the slot's direction, are the model's (log entries 5, 7 and 8). -/
def Obligations.WriteBeatsAreAttributed : Prop :=
  ∀ (s : State) (d0 d1 : BeatData) (m0 m1 : LaneSet), s.porst = false → s.turns.writeBeats = false →
    s.TrackerInv → s.directionFixed = false →
    let back := s.takeBack
    let u := back.settleHolder
    (s.turns.readTaken = none → back.tracker = s.tracker) ∧
    (∀ n sat e, s.turns.readTaken = some (n, sat) → s.entry? n = some e →
      back.entry? n =
        some
          { e with
            beatsSeen := e.beatsSeen - 2
            satisfied := sat &&& e.candidates
            captured := e.captured.map fun l => l.take (e.beatsSeen - 2) }) ∧
    ∃ t, exec (.writeBeatReceive d0 m0 d1 m1) s = .next t ∧ t.turns.writeBeats = true ∧
      t.turns.readTaken = none ∧ t.fwd.rxRead = none ∧ t.fwd.txWrite = s.fwd.txWrite ∧
      match u.openHolder .write s.now with
      | none =>
        t.tracker = u.tracker ∧
        t.fwd.rxWrite = some
          { first := { beat := { data := d0, mask := m0 }, guard := 0 }
            second := { beat := { data := d1, mask := m1 }, guard := 0 }
            source := none }
      | some e =>
        let i := e.beatsSeen
        t.fwd.rxWrite = some
          { first := { beat := { data := d0, mask := m0 }, guard := e.guard.getD i 0 }
            second := { beat := { data := d1, mask := m1 }, guard := e.guard.getD (i + 1) 0 }
            source := some (e.number, i) } ∧
        ∃ e', t.entry? e.number = some e' ∧ e'.beatsSeen = i + 2 ∧ e'.doubtful = e.doubtful ∧
          e'.captured = e.captured.map (· ++
            [{ position := i, column := beatColumn e.map e.len e.order e.column i, data := d0
               mask := some m0 },
             { position := i + 1, column := beatColumn e.map e.len e.order e.column (i + 1), data := d1
               mask := some m1 }]) ∧
          e'.satisfied = e.satisfied ||| satisfiedBy s.windows e.candidates e.burst i d0 |||
            satisfiedBy s.windows e.candidates e.burst (i + 1) d1

/-- Read beats (R4, R9, R12, R50, R96): received for the C-side and placed one slot earlier, where they are the
next two beats of a READ that held that slot, captured as received when its list is present and tested against its
candidates' data conditions; with a C-side strobe they are not forwarded and reach no entry (how the strobe is said
is log entry 7). -/
def Obligations.ReadBeatsAreAttributed : Prop :=
  ∀ (s : State) (strobe : Bool) (d0 d1 : BeatData), s.porst = false → s.turns.readBeats = false →
    s.TrackerInv →
    (strobe = true ∨ s.turns.writeBeats = true →
      exec (.readBeatReceive strobe d0 d1) s =
        .next { s with turns := { s.turns with readBeats := true } }) ∧
    (strobe = false → s.turns.writeBeats = false →
      ∃ t, exec (.readBeatReceive strobe d0 d1) s = .next t ∧ t.fwd.rxRead = some (d0, d1) ∧
        t.turns.readBeats = true ∧
        match s.openHolder .read (s.now - 1) with
        | none => t.tracker = s.tracker ∧ t.turns.readTaken = none
        | some e =>
          let i := e.beatsSeen
          t.turns.readTaken = some (e.number, e.satisfied) ∧
          ∃ e', t.entry? e.number = some e' ∧ e'.beatsSeen = i + 2 ∧ e'.doubtful = e.doubtful ∧
            e'.captured = e.captured.map (· ++
              [{ position := i, column := beatColumn e.map e.len e.order e.column i, data := d0
                 mask := none },
               { position := i + 1, column := beatColumn e.map e.len e.order e.column (i + 1), data := d1
                 mask := none }]) ∧
            e'.satisfied = e.satisfied ||| satisfiedBy s.windows e.candidates e.burst i d0 |||
              satisfiedBy s.windows e.candidates e.burst (i + 1) d1)

/-- A held slot without beats of the holder's direction (R50, R51): its two positions are void, the entry is
DOUBTFUL, and void elements are captured with data 0. Which holder the command resolves is log entry 8: a READ
that held the slot before, else the WRITE that holds this slot once the due data slots are taken. -/
def Obligations.VoidSlotsAreResolved : Prop :=
  ∀ (s : State) (e : Entry), s.porst = false → s.TrackerInv →
    (s.openHolder .read (s.now - 1) = some e ∨
      s.openHolder .read (s.now - 1) = none ∧ s.allData.openHolder .write s.now = some e) →
    ∃ t e', exec .voidSlotResolve s = .next t ∧ t.fwd = s.fwd ∧ t.entry? e.number = some e' ∧
      e'.beatsSeen = e.beatsSeen + 2 ∧ e'.doubtful = true ∧ e'.satisfied = e.satisfied ∧
      (∀ l, e.captured = some l → ∃ x y, e'.captured = some (l ++ [x, y]) ∧
        x.data = 0 ∧ y.data = 0 ∧
        x.mask = (if e.kind = .write then some 0xFF else none) ∧ y.mask = x.mask)

/-- The effect slot (R46, R94, R95, R98, R105, R106): a POSTED entry whose effect slot has come is WAITING with its
candidate set, the hits of windows without data condition and, for a WRITE, its guard masks and a new account with
locked shares, contributing set and blind state; the captured list is present exactly when a candidate has
CAPTURE-DATA or CAPTURE-ALL-DATA is on; the other entries stay; the hits act at once: hit counters with COUNT rise,
WINDOW-CUE pins named by CUE windows start their pulse, and one occurrence for each window with SEQ is offered, in
ascending window order. -/
def Obligations.EffectSlotIsTaken : Prop :=
  ∀ (s : State) (place : BitVec 3) (e : Entry), s.porst = false → s.TrackerInv →
    s.tracker[place.toNat]? = some e → e.phase = .posted → e.effectSlot = s.now →
    ∃ t e', exec (.effectSlot place) s = .next t ∧ t.entry? e.number = some e' ∧ s.EffectTaken e e' ∧
      t.tracker = (s.tracker.map fun x => if x.number = e.number then e' else x) ∧
      s.HitsActed t [e'.hits] ∧ s.HandedOut t [s.seqHits e'.hits] [] ∧
      (s.seqHits e'.hits).Pairwise fun x y => ∀ i j, x = .windowHit i → y = .windowHit j → i < j

/-- The data slot (R48, R49, R52, R53; the wait for the beats of the slot before is log entry 8): a WAITING entry
whose data slot has come takes the bus; with an older
entry STREAMING whose beats of the slot before are in, that entry retires DONE if its window is over, else
CUT with the newcomer flagged CUT; on a shared data slot the later arrival holds it and the other retires
CUT. The retired entry leaves the list and is handed over with the outcome said: its late hits act, its ACCESS
record is offered, its account closes with its report (R97, R111 to R113, R148). The order of what is offered is free
(log entry 3). -/
def Obligations.DataSlotTakesTheBus : Prop :=
  ∀ (s : State) (place : BitVec 3) (n : Entry), s.porst = false → s.TrackerInv →
    s.tracker[place.toNat]? = some n → n.phase = .waiting → n.dataSlot = s.now →
    let takes (x : Entry) (cut : Bool) (l : List Entry) : List Entry :=
      l.map fun e => if e.number = x.number then { x with phase := .streaming, cutFlag := cut } else e
    let without (x : Entry) (l : List Entry) : List Entry := l.filter fun e => e.number ≠ x.number
    (s.streamer = none →
      exec (.dataSlot place) s = .next { s with tracker := takes n n.cutFlag s.tracker }) ∧
    ∀ e, s.streamer = some e → s.awaitsBeats e = false →
      ∃ t, exec (.dataSlot place) s = .next t ∧
        (e.covers s.now = false →
          t.tracker = without e (takes n n.cutFlag s.tracker) ∧ s.HandedOver t [e] .done []) ∧
        (e.covers s.now = true → e.dataSlot ≠ s.now →
          t.tracker = without e (takes n true s.tracker) ∧ s.HandedOver t [e] .cut []) ∧
        (e.covers s.now = true → e.dataSlot = s.now → e.number < n.number →
          t.tracker = without e (takes n true s.tracker) ∧ s.HandedOver t [e] .cut []) ∧
        (e.covers s.now = true → e.dataSlot = s.now → n.number < e.number →
          t.tracker = without n (takes e true s.tracker) ∧ s.HandedOver t [n] .cut [])

/-- Retirement DONE (R52, R53, R97, R98, R148, R149): an entry that has held all its slots leaves the list in the
slot after and is handed over with outcome DONE: its satisfied candidates with a data condition become hits and act:
they are counted, start pulses and offer occurrences; an ACCESS record with its captured beats is offered while
CAPTURE-ALL is on or a hit has CAPTURE, and none otherwise. A WRITE's account closes then (R111 to R113), with a
report when it has a forced or unprotected beat or blindness: a GUARD record and a guard event, with the latches of
R113; while a beat received for it is not yet forwarded the entry waits instead and reports nothing. The order of
the hits' occurrences against the guard event is free (log entry 3). -/
def Obligations.EntryRetiresDone : Prop :=
  ∀ (s : State) (place : BitVec 3) (e : Entry), s.porst = false → s.TrackerInv →
    s.tracker[place.toNat]? = some e → e.phase = .streaming →
    s.now = e.dataSlot + BitVec.ofNat 48 (e.len.beats / 2) → e.beatsSeen = e.len.beats →
    ∃ t, exec (.retireDone place) s = .next t ∧
      t.tracker = s.tracker.filter (fun x => x.number ≠ e.number) ∧ s.HandedOver t [e] .done []

/-- An event that is not due, and a second turn in a slot, change nothing (log entries 4, 5, 7, 8, 12 and 21): a second
sample of the command pins or of a cue pin, an MRST change that is none, second beats of a slot, write beats
after a READ retired with the slot's D-side beats, a frame discarded with no request waiting, an aborted frame whose
bytes hold a complete request, a request while another one waits, an effect slot, data slot or
retirement DONE that has not come, a data slot that waits for a READ's last beats, a take outside ARMED, a
timeout before the expiry, a unit without a record, a pulse end without a pulse, a forwarding with nothing
held, a void resolution without a holder. -/
def Obligations.EventsNotDueChangeNothing : Prop :=
  ∀ (s : State), s.porst = false → s.TrackerInv →
    (s.turns.command = true → (∀ c : Cmd, exec c.arrival s = .next s) ∧
      ∀ code, exec (.undefinedEncoding code) s = .next s) ∧
    (s.fwd.mrst = true ∨ s.turns.mrst = true → exec .memoryResetAssertion s = .next s) ∧
    (s.fwd.mrst = false ∨ s.turns.mrst = true → exec .memoryResetRelease s = .next s) ∧
    (s.turns.writeBeats = true ∨ s.directionFixed = true →
      ∀ d0 m0 d1 m1, exec (.writeBeatReceive d0 m0 d1 m1) s = .next s) ∧
    (∀ p : PinNo, s.turns.pins.getLsbD p.toNat = true → ∀ l, exec (.cueInputChange p l) s = .next s) ∧
    (s.port.waiting = none → exec .frameDiscardedWaiting s = .next s) ∧
    (∀ bytes, requestComplete bytes = true → exec (.frameAborted bytes) s = .next s) ∧
    (∀ c w, (requestBytes c).isSome = true → c.wf = true → s.port.waiting = some w →
      requestForm w ≠ requestForm c → exec c s = .next s) ∧
    (s.turns.readBeats = true → ∀ strobe d0 d1, exec (.readBeatReceive strobe d0 d1) s = .next s) ∧
    (∀ place : BitVec 3,
      ((∀ e, s.tracker[place.toNat]? = some e → e.phase ≠ .posted ∨ e.effectSlot ≠ s.now) →
        exec (.effectSlot place) s = .next s) ∧
      ((∀ e, s.tracker[place.toNat]? = some e → e.phase ≠ .waiting ∨ e.dataSlot ≠ s.now) →
        exec (.dataSlot place) s = .next s) ∧
      (∀ e, s.streamer = some e → s.awaitsBeats e = true → exec (.dataSlot place) s = .next s) ∧
      ((∀ e, s.tracker[place.toNat]? = some e →
          e.phase ≠ .streaming ∨ s.now ≠ e.dataSlot + BitVec.ofNat 48 (e.len.beats / 2) ∨
          e.beatsSeen ≠ e.len.beats) →
        exec (.retireDone place) s = .next s)) ∧
    (s.seq.state ≠ .armed ∨ s.turns.take = true → exec .occurrenceTake s = .next s) ∧
    (s.seq.state ≠ .armed ∨ s.seq.expiry ≠ some s.now → exec .stageTimeout s = .next s) ∧
    (s.turns.pick = true → exec .arbiterPick s = .next s) ∧
    (s.capture.writer = none ∨ s.turns.unit = true → exec .unitWrite s = .next s) ∧
    (∀ p : PinNo, (s.cue p).active = false ∨ (s.cue p).remaining ≠ 0 → exec (.pulseEnd p) s = .next s) ∧
    (s.turns.interval = true → exec .intervalEvent s = .next s) ∧
    (s.fwd.txCommand = none → exec .forwardCommand s = .next s) ∧
    (s.fwd.txWrite = none → exec .writeBeatForward s = .next s) ∧
    (s.fwd.txRead = none → exec .readBeatForward s = .next s) ∧
    (s.openHolder .read (s.now - 1) = none → s.allData.openHolder .write s.now = none →
      exec .voidSlotResolve s = .next s)

/-! ### Windows and guard -/

/-- The columns of a burst (R7): under LINEAR order beat i addresses base + ((s + i) mod L), under EXCHANGE
base + (s XOR i), with base the truncated start column with its low bits cleared; the L beats address
every column of the block once (section 1.4).
Flat addresses (R15, R16): the address of lane n of beat i is index * 8 + n with the index of the map order
over the truncated row and the beat's column, and takes at most 7 + R + C bits and so at most 35 (section 1.8).
That within the configured widths distinct (bank, row, column, lane) have distinct addresses is derived. -/
def Obligations.BurstAddressesFollowTheMap : Prop :=
  (∀ (m : AddrMap) (l : BurstLen) (o : BeatOrder) (col : Col), m.Inv →
     let n := match l with
       | .four => 4
       | .eight => 8
     let c := col.toNat % 2 ^ m.colBits
     let base := c / n * n
     (∀ i, i < n → beatColumn m l o col i =
       base + (match o with
         | .linear => (c - base + i) % n
         | .exchange => (c - base) ^^^ i)) ∧
     ∀ x, base ≤ x → x < base + n → ∃ i, i < n ∧ beatColumn m l o col i = x ∧
       ∀ j, j < n → beatColumn m l o col j = x → j = i) ∧
  (∀ (m : AddrMap), m.Inv →
     (∀ b r c, compositeIndex m b r c =
       match m.order with
       | .brc => b * 2 ^ (m.rowBits + m.colBits) + r * 2 ^ m.colBits + c
       | .rbc => r * 2 ^ (4 + m.colBits) + b * 2 ^ m.colBits + c) ∧
     (∀ (g : Burst) (i n : Nat), g.map = m →
       g.address i n =
         compositeIndex m g.bank.toNat (g.row.toNat % 2 ^ m.rowBits)
           (beatColumn m g.len g.order g.column i) * 8 + n ∧
       (i < g.len.beats → n < 8 → g.address i n < 2 ^ (7 + m.rowBits + m.colBits))) ∧
     7 + m.rowBits + m.colBits ≤ 35 ∧
     ∀ b b' r r' c c' n n' : Nat, b < 16 → b' < 16 → r < 2 ^ m.rowBits → r' < 2 ^ m.rowBits →
       c < 2 ^ m.colBits → c' < 2 ^ m.colBits → n < 8 → n' < 8 →
       compositeIndex m b r c * 8 + n = compositeIndex m b' r' c' * 8 + n' →
       b = b' ∧ r = r' ∧ c = c' ∧ n = n')

/-- Candidates (R94): a window is a candidate exactly when it is enabled, its kinds include the access, the
access has a row, and some nominal beat has a lane whose flat address lies in the range.
Guard masks (R105): lane n of beat i is in the mask exactly when some enabled
window with GUARD and kinds WRITE or BOTH has the lane in its set and the address in its range.
The satisfied set (R96): a beat at position i adds exactly the candidates whose data condition is present, that have
one of the beat's lanes in range, and whose condition the beat's data meets; without a row it adds none. -/
def Obligations.WindowsSelectAndGuard : Prop :=
  (∀ (windows : Vector Window 16) (kind : AccessKind) (g : Option Burst) (k : Fin 16),
     ((candidatesOf windows kind g).getLsbD k.val = true ↔
       windows[k].fields.enable = true ∧
       (windows[k].fields.kinds = .both ∨
         windows[k].fields.kinds = (match kind with
           | .read => .read
           | .write => .write)) ∧
       ∃ b i n, g = some b ∧ i < b.len.beats ∧ n < 8 ∧
         windows[k].fields.low.toNat ≤ b.address i n ∧ b.address i n ≤ windows[k].fields.high.toNat) ∧
     ((conditional windows).getLsbD k.val = true ↔ windows[k].fields.cond ≠ none)) ∧
  (∀ (windows : Vector Window 16) (g : Burst),
     (guardMasks windows g).length = g.len.beats ∧
     ∀ i n, i < g.len.beats → n < 8 →
       (((guardMasks windows g).getD i 0).getLsbD n = true ↔
         ∃ k : Fin 16, windows[k].fields.GivesLane g i n)) ∧
  (∀ (windows : Vector Window 16) (candidates : WindowSet) (g : Option Burst) (i : Nat) (data : BeatData)
     (k : Fin 16),
     (satisfiedBy windows candidates g i data).getLsbD k.val = true ↔
       candidates.getLsbD k.val = true ∧
       (∃ b n, g = some b ∧ n < 8 ∧
         windows[k].fields.low.toNat ≤ b.address i n ∧ b.address i n ≤ windows[k].fields.high.toNat) ∧
       ∃ width kind, windows[k].fields.cond = some (width, kind) ∧
         condHolds width kind windows[k].fields.condValue windows[k].fields.condMask data = true)

/-- Data conditions (R88), said bit by bit: the width selects the low 8, 16, 32 or 64 data bits, and the kind
tests them. -/
def Obligations.DataConditionsAreTested : Prop :=
  ∀ (w : CondWidth) (k : CondKind) (value mask data : BitVec 64),
    let n := match w with
      | .w8 => 8
      | .w16 => 16
      | .w32 => 32
      | .w64 => 64
    (condHolds w k value mask data = true ↔
      match k with
      | .any => True
      | .zero => ∀ i, i < n → data.getLsbD i = false
      | .nonzero => ∃ i, i < n ∧ data.getLsbD i = true
      | .topSet => data.getLsbD (n - 1) = true
      | .topClear => data.getLsbD (n - 1) = false
      | .allOnes => ∀ i, i < n → data.getLsbD i = true
      | .notAllOnes => ∃ i, i < n ∧ data.getLsbD i = false
      | .maskedEqual => ∀ i, i < n → mask.getLsbD i = true → data.getLsbD i = value.getLsbD i)

/-! ### Sequencer -/

/-- Terms (R121): WINDOW-HIT is met by a hit of a window in its set, VIOLATION by a violation that shares a rule
with its set, GUARD by any guard event, CUE-EDGE by that pin's edge, INTERVAL by any interval occurrence, and
ALWAYS by the entry occurrence alone, which meets no other of them. -/
def Obligations.TermsAreMet : Prop :=
  (∀ (x : Taken) (set : WindowSet), (Term.windowHit set).meets x = true ↔
    ∃ k : Fin 16, x = .queued (.windowHit k) ∧ set.getLsbD k.val = true) ∧
  (∀ (x : Taken) (set : RuleSet), (Term.violation set).meets x = true ↔
    ∃ (rules : RuleSet) (n : Nat), x = .queued (.violation rules) ∧ set.getLsbD n = true ∧
      rules.getLsbD n = true) ∧
  (∀ x : Taken, Term.guard.meets x = true ↔ x = .queued .guardEvent) ∧
  (∀ (x : Taken) (p : PinNo) (e : Edge), (Term.cueEdge p e).meets x = true ↔
    x = .queued (.cueEdge p e)) ∧
  (∀ x : Taken, Term.interval.meets x = true ↔ x = .queued .interval) ∧
  ∀ x : Taken, Term.always.meets x = true ↔ x = .entry

/-- The take (R122, R130 to R132, R135 to R137, R143, R152, R156; once a slot, log entry 4): in ARMED, the entry
occurrence or the oldest queued one is taken and used up; not satisfying, it changes nothing more; below N it raises
the count; at N the actions run (a trigger that finds RUN loads the post counter), the next stage, or TRIGGERED, is
entered, and one STAGE record is offered to the capture that the actions leave. -/
def Obligations.OccurrenceIsTaken : Prop :=
  ∀ (s : State) (x : Taken) (rest : List Occurrence), s.porst = false → s.seq.state = .armed →
    s.turns.take = false →
    (s.seq.entry = true ∧ x = .entry ∧ rest = s.seq.queue ∨
      s.seq.entry = false ∧ ∃ o, s.seq.queue = o :: rest ∧ x = .queued o) →
    let st := s.stageOf s.seq.stage
    let met := match st.join with
      | .none => st.termA.meets x
      | .or => st.termA.meets x || st.termB.meets x
      | .andLevel => st.termA.meets x &&
        (match st.termB with
         | .level p high => s.pinLevel p == high
         | _ => false)
    ∃ t, exec .occurrenceTake s = .next t ∧ t.turns.take = true ∧
      (met = false →
        t = { s with
          seq := { s.seq with entry := false, queue := rest }, turns := { s.turns with take := true } }) ∧
      (met = true → s.seq.count + 1 < st.n.toNat →
        t = { s with
          seq := { s.seq with entry := false, queue := rest, count := s.seq.count + 1 }
          turns := { s.turns with take := true } }) ∧
      (met = true → st.n.toNat ≤ s.seq.count + 1 →
        (st.condActions.trigger = false →
          s.ActionsRun t st.condActions st.condPin (.stage s.seq.stage st.nextCondition .condition s.now) ∧
          let next := s.stageOf st.nextCondition
          t.seq =
            { state := .armed, stage := st.nextCondition, count := 0
              expiry := if next.t = 0 then none else some (s.now + next.t.setWidth 48)
              entry := next.hasAlways, queue := rest, stages := s.seq.stages }) ∧
        (st.condActions.trigger = true →
          s.ActionsRun t st.condActions st.condPin (.stage s.seq.stage s.seq.stage .trigger s.now) ∧
          t.seq =
            { state := .triggered, stage := s.seq.stage, count := 0, expiry := none, entry := false
              queue := [], stages := s.seq.stages }))

/-- The timeout (R133, R135 to R137, R143, R152, R156): in ARMED, in the slot of the expiry, the timeout actions run
(a trigger that finds RUN loads the post counter) and the stage named by next on timeout, or TRIGGERED, is entered;
the queue is kept unless TRIGGERED empties it; one STAGE record is offered to the capture that the actions leave. -/
def Obligations.StageTimesOut : Prop :=
  ∀ (s : State), s.porst = false → s.seq.state = .armed → s.seq.expiry = some s.now →
    let st := s.stageOf s.seq.stage
    ∃ t, exec .stageTimeout s = .next t ∧
      (st.timeoutActions.trigger = false →
        s.ActionsRun t st.timeoutActions st.timeoutPin (.stage s.seq.stage st.nextTimeout .timeout s.now) ∧
        let next := s.stageOf st.nextTimeout
        t.turns.take = true ∧
        t.seq =
          { state := .armed, stage := st.nextTimeout, count := 0
            expiry := if next.t = 0 then none else some (s.now + next.t.setWidth 48)
            entry := next.hasAlways, queue := s.seq.queue, stages := s.seq.stages }) ∧
      (st.timeoutActions.trigger = true →
        s.ActionsRun t st.timeoutActions st.timeoutPin (.stage s.seq.stage s.seq.stage .trigger s.now) ∧
        t.seq =
          { state := .triggered, stage := s.seq.stage, count := 0, expiry := none, entry := false
            queue := [], stages := s.seq.stages })

/-- ARM and DISARM (R124, R125, R126, R130, R137): ARM empties the queue, enters stage 0 in every state, uses up the
slot's take and offers one STAGE record, but after a soft reset of the same slot, whose state it leaves; DISARM
returns to IDLE in every state and changes nothing else. (That the ARM after a soft reset is answered OK and offers
no record is log entry 26.) -/
def Obligations.ArmAndDisarmAct : Prop :=
  ∀ (s : State),
    (s.Serves .arm →
     (s.turns.softReset = true → exec .arm s = .next (s.respond { status := .ok, data := [] })) ∧
     (s.turns.softReset = false →
      let first := s.stageOf 0
      ∃ t, exec .arm s = .next t ∧
       t.seq =
         { state := .armed, stage := 0, count := 0
           expiry := if first.t = 0 then none else some (s.now + first.t.setWidth 48)
           entry := first.hasAlways, queue := [], stages := s.seq.stages } ∧
       t.turns = { s.turns with take := true } ∧
       s.RecordsQueued t [[.stage s.seq.stage 0 .arm s.now]] ∧
       t.capture.state = s.capture.state ∧ t.capture.access = s.capture.access ∧
       t.capture.marker = s.capture.marker ∧ t.cues = s.cues ∧ s.SameShadow t ∧ s.SameTracker t ∧
       t.port = s.port.settle { status := .ok, data := [] })) ∧
    (s.Serves .disarm →
     exec .disarm s =
       .next
         (State.respond
           { s with
             seq := { state := .idle, stage := 0, count := 0, expiry := none, entry := false, queue := []
                      stages := s.seq.stages } }
           { status := .ok, data := [] }))

/-! ### Trace capture -/

/-- Capture started and stopped by the service port (R141, R142, R145, R152, R156): a start from OFF or STOPPED gives
RUN, clears the note, keeps store and FULL, and fills the empty staging queues with the SOFT-RESET record of the note
and a GAP record for each lost count that is not 0; in RUN or POST it changes nothing; a stop from RUN or POST
gives STOPPED with empty staging and leaves store, writer and FULL; in OFF or STOPPED it changes
nothing. -/
def Obligations.CaptureStartsAndStops : Prop :=
  ∀ (s : State),
    let ok : Answer := { status := .ok, data := [] }
    let note : List Record := match s.capture.note with
      | some stamp => if s.capture.settings.classes.channel = true then [.channel .softReset stamp] else []
      | none => []
    let gap (q : QueueId) : List Record :=
      if (s.capture.queue q).lost = 0 then [] else [.gap q (s.capture.queue q).lost s.now]
    (s.capture.running = true → (s.Serves .captureStart → exec .captureStart s = .next (s.respond ok)) ∧
      (s.Serves .captureStop → ∃ t, exec .captureStop s = .next t ∧
        t.capture =
          { s.capture with
            state := .stopped, access := s.capture.access.discard, event := s.capture.event.discard
            marker := s.capture.marker.discard } ∧
        t.capture.access.records = [] ∧ t.capture.event.records = [] ∧
        t.capture.marker.records = [])) ∧
    (s.capture.running = false → (s.Serves .captureStop → exec .captureStop s = .next (s.respond ok)) ∧
      (s.Serves .captureStart → s.capture.Inv → ∃ t, exec .captureStart s = .next t ∧
        t.capture =
          { s.capture with
            state := .run, note := none, event := { records := note ++ gap .event, lost := 0 }
            access := { records := gap .access, lost := 0 }
            marker := { records := gap .marker, lost := 0 } } ∧
        t.alert = s.alert ∧ t.seq = s.seq))

/-- READ TRACE (R159, R162): the oldest complete record leaves the store and is returned whole with WRAPPED as
it stood, which is then cleared; with no complete record the answer is EMPTY and nothing changes.
FLUSH (R164): refused with BUSY in RUN and POST; otherwise the store, the reserved record, the queues, the
lost counts, WRAPPED and FULL are cleared, the rotating order restarts, capture is OFF; the settings, the
note and the alert latches stay. -/
def Obligations.StoreIsReadAndFlushed : Prop :=
  (∀ (s : State), s.Serves .flush →
     exec .flush s =
       .next
         (if s.capture.state = .run ∨ s.capture.state = .post then
           s.respond { status := .busy, data := [] }
          else
           State.respond
             { s with
               capture :=
                 { s.capture with
                   state := .off, full := false, wrapped := false, store := [], writer := none
                   access := { records := [], lost := 0 }, event := { records := [], lost := 0 }
                   marker := { records := [], lost := 0 }, rotation := [.event, .access, .marker] } }
             { status := .ok, data := [] })) ∧
  (∀ (s : State), s.Serves .readTrace →
     (s.capture.store = [] → exec .readTrace s = .next (s.respond { status := .empty, data := [] })) ∧
     ∀ r rest, s.capture.store = r :: rest →
       exec .readTrace s =
         .next
           (State.respond { s with capture := { s.capture with store := rest, wrapped := false } }
             { status := .ok, data := (if s.capture.wrapped then 1 else 0) :: r.units.flatten }) ∧
       fillOf (r :: rest) = r.length + fillOf rest)

/-- The writer's unit (R144, R145, R158): the next unit of the record in progress; the last one puts the record,
whole, at the end of the store; in POST the counter falls by 1 and at 0 capture is STOPPED with empty staging.
The arbiter's pick (R144, R145, R156 to R161): with capture in RUN or POST and the writer free, the oldest record of
the first queue in the order leaves it, and in ROTATING mode that queue moves to the end of the order. In STOP mode
a record that does not fit stops capture, sets FULL and TRACE_FULL, keeps the store and writes no unit, and a
discarded GAP record returns its number to its queue's lost count; otherwise the record is begun and its first unit
written, which in POST lowers the counter by 1, the last unit of POST or not; in WRAP mode the fewest oldest records
that make room are discarded first, with WRAPPED set; and when its queue has a lost count it enters the place freed as
a GAP record, the count returning to 0. The other queues stay as they are, unless the unit written is the last of
POST. That the pick writes the first unit itself is log entry 10. -/
def Obligations.RecordsArePickedAndWritten : Prop :=
  (∀ (s : State) (w : Writer), s.porst = false → s.turns.unit = false → s.capture.writer = some w →
     ∃ t, exec .unitWrite s = .next t ∧ t.turns.unit = true ∧
       (w.written + 1 < w.record.length →
         t.capture.writer = some { w with written := w.written + 1 } ∧
         t.capture.store = s.capture.store) ∧
       (w.record.length ≤ w.written + 1 →
         t.capture.writer = none ∧ t.capture.store = s.capture.store ++ [w.record]) ∧
       t.capture.wrapped = s.capture.wrapped ∧ t.capture.full = s.capture.full ∧
       t.capture.rotation = s.capture.rotation ∧ t.alert = s.alert ∧
       (s.capture.state ≠ .post →
         t.capture.state = s.capture.state ∧ t.capture.postCounter = s.capture.postCounter) ∧
       (s.capture.state ≠ .post ∨ 1 < s.capture.postCounter →
         ∀ x, t.capture.queue x = s.capture.queue x) ∧
       (s.capture.state = .post →
         t.capture.postCounter = s.capture.postCounter - 1 ∧
         (1 < s.capture.postCounter → t.capture.state = .post) ∧
         (s.capture.postCounter ≤ 1 → t.capture.state = .stopped ∧
           ∀ x, t.capture.queue x = (s.capture.queue x).discard ∧ (t.capture.queue x).records = []))) ∧
  (∀ (s : State) (q : QueueId) (r : Record) (rest : List Record), s.porst = false →
     s.turns.pick = false → s.turns.unit = false → s.capture.running = true → s.capture.writer = none →
     (match s.capture.settings.arbiterMode with
      | .fixed => [QueueId.event, .access, .marker]
      | .rotating => s.capture.rotation).find? (fun x => !(s.capture.queue x).records.isEmpty) = some q →
     (s.capture.queue q).records = r :: rest → (s.capture.queue q).records.length ≤ q.places →
     fillOf s.capture.store ≤ 4096 → r.length ≤ 6 →
     let lost := (s.capture.queue q).lost
     let after : Staging :=
       if lost = 0 then { records := rest, lost := 0 }
       else { records := rest ++ [.gap q lost s.now], lost := 0 }
     let lastOfPost := s.capture.state = .post ∧ s.capture.postCounter ≤ 1
     ∃ t, exec .arbiterPick s = .next t ∧ t.turns.pick = true ∧
       t.capture.rotation =
         (match s.capture.settings.arbiterMode with
          | .fixed => s.capture.rotation
          | .rotating => s.capture.rotation.filter (fun x => x ≠ q) ++ [q]) ∧
       (s.capture.settings.storeMode = .stop → 4096 - fillOf s.capture.store < r.length →
         t.capture.state = .stopped ∧ t.capture.full = true ∧
         t.alert = { s.alert with latches := s.alert.latches ||| BitVec.twoPow 10 4 } ∧
         t.capture.store = s.capture.store ∧ t.capture.writer = none ∧ t.turns.unit = false ∧
         t.capture.postCounter = s.capture.postCounter ∧ t.capture.wrapped = s.capture.wrapped ∧
         (∀ x, x ≠ q → t.capture.queue x = (s.capture.queue x).discard) ∧
         t.capture.queue q =
           { records := []
             lost := (r :: rest).foldl
               (fun n x => min (n + match x with
                 | .gap _ m _ => m
                 | _ => 0) 65535) lost }) ∧
       (s.capture.settings.storeMode = .wrap ∨ r.length ≤ 4096 - fillOf s.capture.store →
         t.turns.unit = true ∧ t.capture.full = s.capture.full ∧ t.alert = s.alert ∧
         t.capture.postCounter =
           (if s.capture.state = .post then s.capture.postCounter - 1 else s.capture.postCounter) ∧
         (¬ lastOfPost → t.capture.queue q = after ∧
           (∀ x, x ≠ q → t.capture.queue x = s.capture.queue x) ∧ t.capture.state = s.capture.state) ∧
         (lastOfPost → t.capture.queue q = after.discard ∧
           (∀ x, x ≠ q → t.capture.queue x = (s.capture.queue x).discard) ∧
           t.capture.state = .stopped) ∧
         ∃ k, k ≤ s.capture.store.length ∧
           r.length ≤ 4096 - fillOf (s.capture.store.drop k) ∧
           (∀ j, j < k → 4096 - fillOf (s.capture.store.drop j) < r.length) ∧
           t.capture.wrapped = (s.capture.wrapped || 0 < k) ∧
           (r.length = 1 → t.capture.store = s.capture.store.drop k ++ [r] ∧ t.capture.writer = none) ∧
           (1 < r.length → t.capture.store = s.capture.store.drop k ∧
             t.capture.writer = some { record := r, written := 1 })))

/-- Trace records as units, byte by byte (R149 to R153, R156, R193, R194): a record gives as many units as its length,
each of 16 bytes, 1 to 6 of them. The header holds the kind code, the length, the low 32 bits of the stamp, and from
byte 6 on what 11.5 gives the kind; what 11.5 leaves unassigned is 0. An ACCESS record has its header, a mask unit for
a WRITE that carries data and has a captured beat, and a data unit for every two captured beats, the second half of
the last 0 when their number is odd; every other kind is its header alone. The counts of beats keep the ranges their
fields hold (R112, R149). -/
def Obligations.RecordsAreWholeUnits : Prop :=
  ∀ r : Record,
    (∀ a, r = .access a → a.beats.length ≤ 8 ∧ a.beatsSeen ≤ 8) →
    (∀ g, r = .guard g → g.forced ≤ 8 ∧ g.unprotected ≤ 8) →
    let be (k n : Nat) : List Byte := (List.range k).map fun i => BitVec.ofNat 8 (n / 256 ^ (k - 1 - i))
    let bit (k : Nat) (b : Bool) : Nat := if b then 2 ^ k else 0
    let top (row : Option Row) : Nat := 16 * ((row.getD 0).toNat / 65536)
    let low (row : Option Row) : List Byte := be 2 (row.getD 0).toNat
    let code : Byte := match r with
      | .access _ => 1
      | .violation _ _ _ => 2
      | .guard _ => 3
      | .stage _ _ _ _ => 4
      | .cue _ _ _ => 5
      | .channel _ _ => 6
      | .mark _ => 7
      | .gap _ _ _ => 8
    let stamp : Slot := match r with
      | .access a => a.stamp
      | .guard g => g.stamp
      | .violation _ _ t | .stage _ _ _ t | .cue _ _ t | .channel _ t | .mark t | .gap _ _ t => t
    let body : List Byte := match r with
      | .access a =>
        let outcome : Nat := match a.outcome with
          | some .done => 0
          | some .cut => 1
          | some .abandoned => 2
          | none => 3
        let reason : Nat := match a.untracked with
          | some .state => 0
          | some .modeUnset => 1
          | some .full => 2
          | none => 0
        be 1 (bit 0 (a.kind = .write) + bit 1 (a.lenOrder.map Prod.fst = some .eight) +
            bit 2 (a.lenOrder.map Prod.snd = some .exchange) + bit 3 a.autoClose + bit 4 a.posted + bit 5 a.data +
            64 * outcome) ++
          be 1 (bit 0 a.doubtful + bit 1 a.rowless + bit 2 a.cutFlag + bit 3 (a.untracked ≠ none) + 16 * reason +
            bit 6 (a.lenOrder ≠ none)) ++
          be 1 (a.bank.toNat + top a.row) ++ be 1 (a.beatsSeen + 16 * a.beats.length) ++ low a.row ++
          be 2 a.column.toNat ++ be 2 a.hits.toNat
      | .violation rule c _ =>
        let (kind, bank, row, column) : Nat × Option BankNo × Option Row × Option Col := match c with
          | .openBank b x => (0, some b, some x, none)
          | .access .read b x _ => (1, some b, none, some x)
          | .access .write b x _ => (2, some b, none, some x)
          | .closeBank b => (3, some b, none, none)
          | .closeAll => (4, none, none, none)
          | .refresh => (5, none, none, none)
          | .modeLoad _ _ => (6, none, none, none)
          | .sleepEnter => (7, none, none, none)
          | .sleepExit => (8, none, none, none)
        be 1 rule.val ++ be 1 kind ++
          be 1 ((bank.getD 0).toNat + top row + bit 5 (bank ≠ none) + bit 6 (row ≠ none) +
            bit 7 (column ≠ none)) ++
          low row ++ be 2 (column.getD 0).toNat
      | .guard g =>
        be 1 ((match g.window with
            | some k => k.val
            | none => 0) + bit 7 (g.window ≠ none)) ++
          be 1 (bit 0 g.unable + bit 1 g.blind + bit 2 g.blocked + bit 3 g.untracked + bit 4 g.locked) ++
          be 1 (g.bank.toNat + top g.row + bit 5 (g.row ≠ none) + bit 6 (g.column ≠ none)) ++ low g.row ++
          be 2 (g.column.getD 0) ++ [g.lanes] ++ be 1 (g.forced + 16 * g.unprotected)
      | .stage source target cause _ =>
        be 1 source.toNat ++ be 1 target.toNat ++
          [match cause with
           | .condition => 0
           | .timeout => 1
           | .arm => 2
           | .trigger => 3]
      | .cue p e _ => be 1 p.toNat ++ [if e = .rising then 0 else 1]
      | .channel e _ =>
        [match e with
         | .memresetOn => 0
         | .memresetOff => 1
         | .sleepEnter => 2
         | .sleepExit => 3
         | .forget => 4
         | .softReset => 5]
      | .mark t => be 6 t.toNat
      | .gap q n _ =>
        (match q with
         | .access => 0
         | .event => 1
         | .marker => 2) :: be 2 n
    let masks : List (List Byte) := match r with
      | .access a =>
        if a.kind = .write ∧ a.data = true ∧ a.beats ≠ [] then
          [((List.range 8).map fun i => ((a.beats[i]?).bind fun x => x.1.mask).getD 0) ++
           (List.range 8).map fun i => ((a.beats[i]?).map fun x => x.2).getD 0]
        else []
      | _ => []
    let data : List (List Byte) := match r with
      | .access a =>
        let half (i : Nat) : List Byte := be 8 (((a.beats[i]?).map fun x => x.1.data.toNat).getD 0)
        (List.range ((a.beats.length + 1) / 2)).map fun u => half (2 * u) ++ half (2 * u + 1)
      | _ => []
    r.units =
      ([code, BitVec.ofNat 8 (1 + masks.length + data.length)] ++ be 4 stamp.toNat ++ body ++
        List.replicate (10 - body.length) 0) :: (masks ++ data) ∧
    r.length = 1 + masks.length + data.length ∧ 1 ≤ r.length ∧ r.length ≤ 6 ∧ ∀ u ∈ r.units, u.length = 16

/-! ### Alerts, cue pins, timebase -/

/-- Potency (R169): GUARD_LOCKED is potent whenever its latch is set, another cause when its latch, its enable
and the global enable are; ALERT_N is asserted exactly while a cause is potent; after a power-on reset
assertion every latch is clear and ALERT_N released. -/
def Obligations.AlertFollowsPotency : Prop :=
  (∀ (a : Alert) (c : Fin 10), (a.potent.getLsbD c.val = true ↔
    a.latches.getLsbD c.val = true ∧
      (c = 2 ∨ a.enables.getLsbD c.val = true ∧ a.globalOn = true))) ∧
  (∀ a : Alert, (a.asserted = true ↔ ∃ c : Fin 10, a.potent.getLsbD c.val = true)) ∧
  ∀ s : State, s.porst = false → ∃ t, exec .powerOnResetAssert s = .next t ∧ t.alert.latches = 0 ∧
    t.alert.asserted = false

/-- ACK (R170): the latch of each cause named is cleared and nothing else changes; a set with a member that
names no cause is refused with RANGE and clears nothing. -/
def Obligations.AckClearsNamedLatches : Prop :=
  ∀ (s : State) (causes : BitVec 16), s.Serves (.ack causes) →
    exec (.ack causes) s =
      .next
        (if (∃ n : Fin 6, causes.getLsbD (10 + n.val) = true) then
          s.respond { status := .range, data := [] }
         else
          State.respond
            { s with alert := { s.alert with latches := s.alert.latches &&& ~~~(causes.setWidth 10) } }
            { status := .ok, data := [] })

/-- The cue pins (R174, R175): the slot's first sample of a level on the board reaches that pin alone and is noted
(how a queue says so is log entry 6; EventsNotDueChangeNothing says that a second sample is none, PowerOnResetActs
that nothing is sampled under PORST_N); a pulse whose slots have run out ends and the pin is driven 0; pulse remaining
falls by 1 at the start of the next slot, here said of a slot in whose last events no pulse can start
(EdgesAreTakenAtSlotEnd says it of every slot); a pin's level follows its function, and the part drives it but in PORT
with direction IN. -/
def Obligations.CuePinsAct : Prop :=
  (∀ (s : State) (p : PinNo) (l : Bool), s.porst = false → s.turns.pins.getLsbD p.toNat = false →
    exec (.cueInputChange p l) s =
      .next
        { s.setCue p { s.cue p with board := l } with
          turns := { s.turns with pins := s.turns.pins ||| BitVec.twoPow 4 p.toNat } }) ∧
  (∀ (s : State) (p : PinNo), s.porst = false → (s.cue p).active = true → (s.cue p).remaining = 0 →
    exec (.pulseEnd p) s = .next (s.setCue p { s.cue p with active := false })) ∧
  (∀ (s : State), s.porst = false → s.port.waiting = none → s.tracker = [] → s.seq.state ≠ .armed →
    ∃ t, exec .slotAdvance s = .next t ∧
      ∀ p, (t.cue p).remaining = (s.cue p).remaining - 1 ∧
        ((t.cue p).active = true ↔ (s.cue p).active = true ∧ (s.cue p).remaining ≠ 0)) ∧
  ∀ (s : State) (p : PinNo),
    (s.pinLevel p =
      match (s.cue p).function with
      | .port => if (s.cue p).out then (s.cue p).latch else (s.cue p).board
      | .seqCue => (s.cue p).active
      | .windowCue => (s.cue p).active
      | .alertMirror => decide (∃ c : Fin 10, s.alert.potent.getLsbD c.val = true)) ∧
    (s.porst = false →
      s.cueDrive p =
        if (s.cue p).function = .port ∧ (s.cue p).out = false then none else some (s.pinLevel p))

/-- Edges (R176): when a slot other than the first ends, each pin's last level is its level then, and each pin
whose level differs offers one cue-edge occurrence and one CUE record with the slot's stamp, in some order; in the
first slot none does (log entries 2, 3, 9 and 12: the owed events and the request that waits come first, the order is
free, the comparison stands at the end). Pulse remaining falls by 1 at the start of the slot that follows (R175). -/
def Obligations.EdgesAreTakenAtSlotEnd : Prop :=
  ∀ (s : State), s.porst = false →
    let u := s.lastEvents
    let edges := allPins.filterMap fun p =>
      if (u.cue p).lastLevel = u.pinLevel p then none
      else some (p, if u.pinLevel p then Edge.rising else Edge.falling)
    (s.port.waiting = none → u = s.owedEvents) ∧
    ∃ t, exec .slotAdvance s = .next t ∧ t.now = u.now + 1 ∧
      (∀ p, t.cue p = { u.cue p with remaining := (u.cue p).remaining - 1, lastLevel := u.pinLevel p }) ∧
      (u.turns.firstSlot = true → t.capture = u.capture ∧ t.seq = u.seq ∧ t.alert = u.alert) ∧
      (u.turns.firstSlot = false →
        u.HandedOut t (edges.map fun x => [.cueEdge x.1 x.2]) (edges.map fun x => [.cue x.1 x.2 u.now]))

/-- Interval events (R127, R129, R153 to R155, R179; once a slot, log entry 4): in a slot reached by advance whose value
is a multiple of the interval, an interval occurrence is offered and with markers on a MARK record; in any other slot
neither. The occurrence joins the queue in ARMED when a stage has the INTERVAL term and a place is free, sets
SEQ_OVERRUN when none is, and is dropped otherwise. The record joins marker staging in RUN and POST when its place is
free; when it is not, the record is lost and counted, and the first loss sets CAPTURE_GAP; in OFF and STOPPED it is
discarded. Nothing else changes. -/
def Obligations.IntervalEventIsProduced : Prop :=
  ∀ (s : State), s.porst = false → s.turns.interval = false →
    let due : Bool := s.turns.byAdvance && s.now.toNat % (match s.interval with
      | .p12 => 2 ^ 12
      | .p16 => 2 ^ 16
      | .p20 => 2 ^ 20
      | .p24 => 2 ^ 24) == 0
    let used := due = true ∧ s.seq.state = .armed ∧
      ∃ st ∈ s.seq.stages.toList, st.termA = .interval ∨ st.join = .or ∧ st.termB = .interval
    let marked := due = true ∧ s.capture.settings.markers = true ∧
      (s.capture.state = .run ∨ s.capture.state = .post)
    let queue := s.seq.queue
    let staged := s.capture.marker.records
    let lost := s.capture.marker.lost
    exec .intervalEvent s =
      .next
        { s with
          turns := { s.turns with interval := true }
          seq := { s.seq with queue := if used ∧ queue.length < 16 then queue ++ [.interval] else queue }
          capture :=
            { s.capture with
              marker :=
                { records := if marked ∧ staged.length < 1 then staged ++ [.mark s.now] else staged
                  lost := if marked ∧ 1 ≤ staged.length then min (lost + 1) 65535 else lost } }
          alert :=
            { s.alert with
              latches := s.alert.latches |||
                (if used ∧ 16 ≤ queue.length then BitVec.twoPow 10 7 else 0) |||
                (if marked ∧ 1 ≤ staged.length ∧ lost = 0 then BitVec.twoPow 10 8 else 0) } }

/-- TIME CLEAR (R28, R61, R67, R73, R103, R133, R165, R180): the counter is 0; bank stamps go and auto-close stamps
move; entries' slots and the wait timer move by the same amount, those of retired WRITEs whose account is still
open among them (log entry 14); the checker's stamps and rolling list go; what else there is stays. -/
def Obligations.TimeClearMovesTime : Prop :=
  ∀ (s : State), s.Serves .timeClear →
    exec .timeClear s =
      .next
        (State.respond
          { s with
            now := 0
            turns := { s.turns with byAdvance := false }
            banks := Vector.ofFn fun k =>
              { state := match s.banks[k].state with
                  | .closing row stamp => .closing row (stamp - s.now)
                  | st => st
                openStamp := none, closeStamp := none, lastReadEffect := none, lastWriteEnd := none }
            tracker := s.tracker.map fun e =>
              { e with effectSlot := e.effectSlot - s.now, dataSlot := e.dataSlot - s.now }
            waiting := s.waiting.map fun e =>
              { e with effectSlot := e.effectSlot - s.now, dataSlot := e.dataSlot - s.now }
            checker := { s.checker with readEnd := none, measure := none, rolling := [] }
            seq := { s.seq with expiry := s.seq.expiry.map (· - s.now) } }
          { status := .ok, data := [] })

/-! ### Service port -/

/-- SHADOW FORGET (R36, R38, R57) makes every bank UNKNOWN without stamps, every word INVALID, empties the tracker and
the checker's spacing state, keeps channel state, forwarding and counter, and offers a FORGET record; every entry
retires ABANDONED and is handed over as at any retirement (R53, R97, R111, R148), the order of what is offered being
free (log entry 3). SOFT RESET (R59, R87, R119, R120,
R147, R168, R171, R173, R191) gives shadow, tracker, checker, unlocked windows, sequencer, capture, alert unit
and cue pins their defaults with the soft-reset note set, and keeps MRST's state, address map, blind policy,
locked windows, the GUARD_LOCKED latch, counter and forwarding; every event after it in the slot leaves the
sequencer in that state, default table and all (R126, R138; of an ARM and a STAGE write log entry 26). Which level of
MRST it takes is log entry 23. -/
def Obligations.ForgetAndSoftResetAct : Prop :=
  (∀ (s : State), s.Serves .shadowForget →
    ∃ t, exec .shadowForget s = .next t ∧ t.chan = s.chan ∧ (∀ b, t.bank b = Bank.blank .unknown) ∧
      t.modes = Modes.invalid ∧ t.tracker = [] ∧ t.fwd = s.fwd ∧ t.now = s.now ∧
      t.checker = { s.checker with readEnd := none, measure := none, rolling := [] } ∧
      s.HandedOver t s.tracker .abandoned [[.channel .forget s.now]]) ∧
  (∀ (s : State), s.Serves .softReset →
    ∃ t, exec .softReset s = .next t ∧ t.turns.softReset = true ∧
      t.chan = (if s.fwd.mrst then .resetHeld else .live) ∧ (∀ b, t.bank b = Bank.blank .unknown) ∧
      t.modes = Modes.invalid ∧ t.map = s.map ∧ t.blind = s.blind ∧ t.tracker = [] ∧ t.waiting = [] ∧
      t.checker = Checker.default ∧
      (∀ k : Fin 16, t.windows[k] = if s.windows[k].locked then s.windows[k] else Window.default) ∧
      t.seq = Sequencer.default ∧ t.capture = { Capture.default with note := some s.now } ∧
      t.alert = { latches := s.alert.latches &&& 4, globalOn := true, enables := 0 } ∧
      (∀ p : Fin 4, t.cues[p] =
        { s.cues[p] with
          function := .port, out := false, latch := false, width := 4, remaining := 0, active := false }) ∧
      t.interval = .p20 ∧ t.now = s.now ∧ t.fwd = s.fwd) ∧
  ∀ (s : State) (c : Instr), s.turns.softReset = true → s.seq = Sequencer.default →
    ∃ t, exec c s = .next t ∧ t.seq = Sequencer.default

/-- LOCK WINDOW, CLEAR COUNTS, CLEAR VIOLATIONS and SET PINS (R84, R99, R115, R177): each changes what it names
and nothing else; SET PINS gives the latch of each pin named the value given for it. -/
def Obligations.LockClearsAndPinsAct : Prop :=
  (∀ (s : State),
     let ok : Answer := { status := .ok, data := [] }
     (∀ (n : Byte) (h : n.toNat < 16), s.Serves (.lockWindow n) → exec (.lockWindow n) s =
       .next
         (State.respond
           { s with windows := s.windows.set n.toNat { s.windows[n.toNat] with locked := true } } ok)) ∧
     (∀ n : Byte, 16 ≤ n.toNat → s.Serves (.lockWindow n) → exec (.lockWindow n) s =
       .next (s.respond { status := .range, data := [] })) ∧
     (s.Serves .clearCounts → exec .clearCounts s =
       .next
         (State.respond
           { s with
             checker := { s.checker with counts := Vector.replicate 22 0 }
             windows := Vector.ofFn fun k => { s.windows[k] with hitCount := 0, revised := false } } ok)) ∧
     (s.Serves .clearViolations → exec .clearViolations s =
       .next (State.respond { s with checker := { s.checker with first := none } } ok))) ∧
  (∀ (s : State) (v : Byte), s.Serves (.setPins v) →
     exec (.setPins v) s =
       .next
         (State.respond
           { s with
             cues := Vector.ofFn fun p =>
               { s.cues[p] with
                 latch := if v.getLsbD (4 + p.val) then v.getLsbD p.val else s.cues[p].latch } }
           { status := .ok, data := [] }))

/-- Frames and reads. An incomplete frame, a frame discarded behind a waiting request, an undefined code, READ ITEM
and READ STATUS change nothing but the port (R184, R185, R187, R188, R190).
READ ITEM's addresses and lengths (R188, 10.3, 11.2): exactly the indices of the fourteen groups name an
item, and the value has the group's length. The read-only items byte by byte (R39, R62, R82, R85, R190, 11.2): STATUS,
COUNTS, FIRST VIOLATION, SHADOW, TRACKER and IDENT; the writable ones are said by ItemsReadBackAsWritten.
A frame on the wire (R182 to R185, 11.1): its request, complete with its last byte, waits; SDO carries filler
until the turnaround byte is over, then the status byte, the response data and filler again. A request that takes
effect only after its turnaround byte, or after its frame, leaves filler; a frame whose request completes behind a
waiting one is discarded and carries filler; with SSEL_N released SDO is at high impedance and what was not shifted
out is gone. The bytes of each request are read as that request (R186, 11.1). That a request command with no frame
on the wire stands for its own frame, and that no other row takes effect while a request waits, is log entry 12. -/
def Obligations.ReadsChangeNothing : Prop :=
  (∀ (s : State), s.porst = false →
     (∀ bytes, requestComplete bytes = false →
       exec (.frameAborted bytes) s =
         .next { s with port := { s.port with frame := .idle, bits := [], reply := .filler } }) ∧
     (∀ c, s.port.waiting = some c → exec .frameDiscardedWaiting s =
       .next { s with port := { frame := .turnaround, bits := [], waiting := some c, reply := .filler } }) ∧
     (∀ code : Byte, s.Serves (.unknownRequest code) →
       code.toNat ∉ [0x01, 0x02, 0x03, 0x04, 0x05, 0x10, 0x11, 0x12, 0x18, 0x19, 0x20, 0x28, 0x29, 0x30,
         0x38, 0x40, 0x5A] →
       exec (.unknownRequest code) s = .next (s.respond { status := .unknown, data := [] })) ∧
     (∀ group index, s.Serves (.readItem group index) → exec (.readItem group index) s =
       .next (s.respond
         (match s.itemBytes group index with
          | some data => { status := .ok, data := data }
          | none => { status := .range, data := [] }))) ∧
     (s.Serves .readStatus → ∃ data, s.itemBytes 0x10 0 = some data ∧
       exec .readStatus s = .next (s.respond { status := .ok, data := data }))) ∧
  (∀ (s : State),
     let be (k n : Nat) : List Byte := (List.range k).map fun i => BitVec.ofNat 8 (n / 256 ^ (k - 1 - i))
     let opt (x : Option Slot) : List Byte := be 6 ((x.map BitVec.toNat).getD 0)
     let chan (x : ChanState) : Byte := match x with
       | .live => 0
       | .asleep => 1
       | .resetHeld => 2
     let bank (e : Bank) : List Byte :=
       let state : Nat × Row × Slot := match e.state with
         | .unknown => (0, 0, 0)
         | .closed => (1, 0, 0)
         | .opened r => (2, r, 0)
         | .closing r x => (3, r, x)
       be 1 (state.1 + (if e.openStamp = none then 0 else 16) + (if e.closeStamp = none then 0 else 32) +
           (if e.lastReadEffect = none then 0 else 64) + (if e.lastWriteEnd = none then 0 else 128)) ++
         be 3 state.2.1.toNat ++ opt e.openStamp ++ opt e.closeStamp ++ opt e.lastReadEffect ++
         opt e.lastWriteEnd ++ be 6 state.2.2.toNat
     s.itemBytes 0x10 0 =
       some
         ([chan s.chan,
           match s.capture.state with
           | .off => 0
           | .run => 1
           | .post => 2
           | .stopped => 3] ++
           be 1 ((match s.seq.state with
             | .idle => 0
             | .armed => 1
             | .triggered => 2) + 16 * s.seq.stage.toNat) ++
           be 1 ((if s.capture.wrapped then 1 else 0) + (if s.capture.full then 2 else 0)) ++
           be 2 (s.capture.store.map Record.length).sum ++ be 2 s.capture.store.length ++
           be 2 s.alert.latches.toNat) ∧
     s.itemBytes 0x11 0 = some ((List.finRange 22).map fun n => BitVec.ofNat 8 s.checker.counts[n]) ∧
     s.itemBytes 0x12 0 =
       some
         (match s.checker.first with
          | none => List.replicate 23 0
          | some f =>
            let (kind, bank, row, column, autoClose, index, value) : Nat × Nat × Nat × Nat × Bool × Nat × Nat :=
              match f.cmd with
              | .openBank b r => (0, b.toNat, r.toNat, 0, false, 0, 0)
              | .access .read b c ac => (1, b.toNat, 0, c.toNat, ac, 0, 0)
              | .access .write b c ac => (2, b.toNat, 0, c.toNat, ac, 0, 0)
              | .closeBank b => (3, b.toNat, 0, 0, false, 0, 0)
              | .closeAll => (4, 0, 0, 0, false, 0, 0)
              | .refresh => (5, 0, 0, 0, false, 0, 0)
              | .modeLoad i v => (6, 0, 0, 0, false, i.toNat, v.toNat)
              | .sleepEnter => (7, 0, 0, 0, false, 0, 0)
              | .sleepExit => (8, 0, 0, 0, false, 0, 0)
            be 1 1 ++ be 1 kind ++ [chan f.chan] ++ be 1 bank ++ be 3 row ++ be 2 column ++
              [if autoClose then 1 else 0] ++ be 1 index ++ be 2 value ++
              be 1 ((((List.finRange 22).find? fun n => f.rules.getLsbD n.val).map Fin.val).getD 0) ++
              be 3 f.rules.toNat ++ be 6 f.stamp.toNat) ∧
     s.itemBytes 0x13 0 =
       some
         (((List.finRange 16).flatMap fun k => bank s.banks[k]) ++
           (match s.modes.word0 with
            | none => [0, 0, 0, 0]
            | some w =>
              [1, if w.len = .four then 4 else 8, if w.order = .linear then 0 else 1, w.readDelay.setWidth 8]) ++
           (match s.modes.word1 with
            | none => [0, 0, 0, 0]
            | some w => [1, w.writeDelay.setWidth 8, w.postedDelay.setWidth 8, 0]) ++
           (match s.modes.word2 with
            | none => [0, 0, 0, 0]
            | some w => [1, if w.maskOn then 1 else 0, 0, 0])) ∧
     s.itemBytes 0x14 0 = some (be 1 s.tracker.length) ∧
     s.itemBytes 0x15 0 = some [0x34, 0x10, 0x00, 0x01]) ∧
  (∀ (s : State) (group index : Byte),
     ((s.itemBytes group index).isSome = true ↔
       (group.toNat, index.toNat) ∈
         ([(0x01, 4), (0x02, 22), (0x03, 16), (0x04, 8), (0x05, 7), (0x06, 1), (0x07, 4), (0x08, 1),
           (0x10, 1), (0x11, 1), (0x12, 1), (0x13, 1), (0x14, 1), (0x15, 1)] : List (Nat × Nat)).flatMap
           fun g => (List.range g.2).map fun i => (g.1, i)) ∧
     ∀ data, s.itemBytes group index = some data →
       (group.toNat, data.length) ∈
         ([(0x01, 1), (0x02, 3), (0x03, 35), (0x04, 20), (0x05, 2), (0x06, 3), (0x07, 4), (0x08, 7),
           (0x10, 10), (0x11, 22), (0x12, 23), (0x13, 556), (0x14, 1), (0x15, 4)] : List (Nat × Nat))) ∧
  (∀ (p : Port) (l : List Byte) (x : Byte) (ys : List Byte) (a : Answer), p.frame = .idle →
     requestComplete l = true → (∀ k, k < l.length → requestComplete (l.take k) = false) →
     let sent := p.run (.select :: l.flatMap wireOfByte)
     let rest := (x :: ys).flatMap wireOfByte
     let answered := (sent.settle a).run rest
     let late := (sent.run rest).settle a
     let status : Byte := match a.status with
       | .ok => 0x00
       | .busy => 0x01
       | .locked => 0x02
       | .range => 0x03
       | .empty => 0x04
       | .unknown => 0x05
     (p.waiting = none →
       sent = { frame := .turnaround, bits := [], waiting := requestOf l, reply := .due } ∧
       (requestOf l).isSome = true ∧ (sent.settle a).sdoByte = some 0xFF ∧
       answered.sdoByte = some ((status :: a.data).getD ys.length 0xFF) ∧ answered.waiting = none ∧
       answered.deselect.sdoByte = none ∧ answered.deselect.reply = .filler ∧
       late.sdoByte = some 0xFF ∧ late.waiting = none ∧
       sent.deselect.waiting = requestOf l ∧ (sent.deselect.settle a).sdoByte = none) ∧
     ∀ c, p.waiting = some c →
       sent = { frame := .turnaround, bits := [], waiting := some c, reply := .filler } ∧
       late.sdoByte = some 0xFF) ∧
  (∀ (s : State), (s.porst = true → s.sdo = none) ∧ (s.port.frame = .idle → s.sdo = none) ∧
     (s.porst = false → ∀ b, s.port.sdoByte = some b → s.sdo = some (b.getLsbD (7 - s.port.bits.length)))) ∧
  (∀ (c : Instr) (l : List Byte), requestBytes c = some l →
     c.wf = true →
     (∀ g i v, c = .writeItem g i v →
       (¬ (1 ≤ g.toNat ∧ g.toNat ≤ 8) ∨ groupIndices g ≤ i.toNat) ∧ v.length = writeBytes g) →
     requestOf l = some c)

/-- Writes of the CHANNEL, TIME, RULE and ALERT items (R14, R17, R63, R64, R104, R168, R181, R189): for CHANNEL
LOCKED before BUSY before RANGE; a value outside its range or an undefined code is refused with RANGE; an
accepted write changes its item alone, a refused one nothing. -/
def Obligations.PlainWritesAct : Prop :=
  (∀ (s : State),
     let refuse (st : Status) : Out := .next (s.respond { status := st, data := [] })
     let ok (t : State) : Out := .next (t.respond { status := .ok, data := [] })
     let locked := ∃ k : Fin 16, s.windows[k].locked = true
     (∀ (i : MapItem) (v : Byte), s.Serves (.writeAddressMap i v) → exec (.writeAddressMap i v) s =
       if locked then refuse .locked
       else if s.tracker ≠ [] then refuse .busy
       else match i with
         | .order =>
           if v = 0 then ok { s with map := { s.map with order := .brc } }
           else if v = 1 then ok { s with map := { s.map with order := .rbc } } else refuse .range
         | .rowWidth =>
           if 12 ≤ v.toNat ∧ v.toNat ≤ 17 then ok { s with map := { s.map with rowBits := v.toNat } }
           else refuse .range
         | .columnWidth =>
           if 9 ≤ v.toNat ∧ v.toNat ≤ 11 then ok { s with map := { s.map with colBits := v.toNat } }
           else refuse .range) ∧
     (∀ v : Byte, s.Serves (.writeBlindPolicy v) → exec (.writeBlindPolicy v) s =
       if locked then refuse .locked
       else if s.tracker ≠ [] then refuse .busy
       else if v = 0 then ok { s with blind := .pass }
       else if v = 1 then ok { s with blind := .block } else refuse .range) ∧
     ∀ v : BitVec 56, s.Serves (.writeTime v) → exec (.writeTime v) s =
       match (v.extractLsb' 48 8).toNat with
       | 0 => ok { s with interval := .p12 }
       | 1 => ok { s with interval := .p16 }
       | 2 => ok { s with interval := .p20 }
       | 3 => ok { s with interval := .p24 }
       | _ => refuse .range) ∧
  (∀ (s : State),
     let refuse (st : Status) : Out := .next (s.respond { status := st, data := [] })
     let ok (t : State) : Out := .next (t.respond { status := .ok, data := [] })
     (∀ (n : Byte) (v : BitVec 24) (h : n.toNat < 22), s.Serves (.writeRule n v) → exec (.writeRule n v) s =
       let x := v.extractLsb' 8 8
       let y := v.extractLsb' 0 8
       let range := ([(1, 15), (1, 15), (1, 63), (1, 15), (1, 15), (1, 15), (1, 15), (0, 7), (8, 255),
         (1, 15), (1, 255), (2, 8)] : List (Nat × Nat))[n.toNat]?
       match range with
       | none =>
         ok { s with checker := { s.checker with
           rules := s.checker.rules.set n.toNat { enabled := v.getLsbD 16, value := 0, value2 := 0 } } }
       | some (lo, hi) =>
         if lo ≤ x.toNat ∧ x.toNat ≤ hi ∧ (n.toNat = 11 → 8 ≤ y.toNat) then
           ok { s with checker := { s.checker with
             rules := s.checker.rules.set n.toNat
               { enabled := v.getLsbD 16, value := x, value2 := if n.toNat = 11 then y else 0 } } }
         else refuse .range) ∧
     ∀ v : BitVec 24, s.Serves (.writeAlertEnables v) → exec (.writeAlertEnables v) s =
       if (v.extractLsb' 16 8).toNat ≤ 1 ∧ (v.extractLsb' 0 16).toNat < 1024 then
         ok { s with alert := { s.alert with
           globalOn := v.getLsbD 16, enables := v.extractLsb' 0 10 } }
       else refuse .range)

/-- Writes of WINDOW items (R90, R92, R100, 11.2): LOCKED, then RANGE for low above high, an address of 2^35 or
more, undefined access kinds or an undefined condition kind; an accepted write is a rewrite: every programmed
field is taken from its bytes, CAPTURE-DATA storing CAPTURE as set (R89), lock state and hit counter stay, the
window leaves the candidate and satisfied sets of every entry in flight and is marked when it was a candidate of
one. -/
def Obligations.WindowWriteActs : Prop :=
  ∀ (s : State) (n : Byte) (v : BitVec 280) (h : n.toNat < 16), s.Serves (.writeWindow n v) →
    let low := v.extractLsb' 232 40
    let high := v.extractLsb' 192 40
    let kinds := v.extractLsb' 273 2
    let present := v.getLsbD 191
    let kind := (v.extractLsb' 184 4).toNat
    let fields : WindowFields :=
      { enable := v.getLsbD 272, low := low.setWidth 35, high := high.setWidth 35
        kinds := if kinds = 1 then .read else if kinds = 2 then .write else .both
        cond :=
          if present then
            some
              (match (v.extractLsb' 188 2).toNat with
               | 0 => .w8
               | 1 => .w16
               | 2 => .w32
               | _ => .w64,
               match kind with
               | 0 => .any
               | 1 => .zero
               | 2 => .nonzero
               | 3 => .topSet
               | 4 => .topClear
               | 5 => .allOnes
               | 6 => .notAllOnes
               | _ => .maskedEqual)
          else none
        condValue := v.extractLsb' 120 64, condMask := v.extractLsb' 56 64
        actions :=
          { count := v.getLsbD 48, capture := v.getLsbD 49 || v.getLsbD 50, captureData := v.getLsbD 50
            cue := v.getLsbD 51, seq := v.getLsbD 52, guard := v.getLsbD 53 }
        cuePin := v.extractLsb' 40 2, lanes := v.extractLsb' 32 8 }
    exec (.writeWindow n v) s =
      if s.windows[n.toNat].locked then .next (s.respond { status := .locked, data := [] })
      else if high.toNat < low.toNat ∨ 2 ^ 35 ≤ low.toNat ∨ 2 ^ 35 ≤ high.toNat ∨ kinds = 0 ∨
          present = true ∧ 8 ≤ kind then
        .next (s.respond { status := .range, data := [] })
      else
        .next
          (State.respond
            { s with
              windows := s.windows.set n.toNat
                { s.windows[n.toNat] with
                  fields := fields
                  revised := s.windows[n.toNat].revised ||
                    s.tracker.any fun e => e.candidates.getLsbD n.toNat }
              tracker := s.tracker.map fun e =>
                { e with
                  candidates := e.candidates &&& ~~~BitVec.twoPow 16 n.toNat
                  satisfied := e.satisfied &&& ~~~BitVec.twoPow 16 n.toNat } }
            { status := .ok, data := [] })

/-- Writes of STAGE, TRACE and CUE items (R123, R147, R157, R173, R189, 11.2): STAGE refused with BUSY in ARMED, the two
TRACE modes with BUSY in RUN and POST, then a value outside its range with RANGE: for a stage N 0, a next stage
above 7, a cue pin above 3, an undefined term, join, action or level, a level as term A, a set out of its bits, a
term B that does not fit the join; for a pin an undefined function or direction or a width of 0. Otherwise the
fields are taken together from their bytes, writing ROTATING restarts the rotating order, and a change of a pin's
function ends its pulse; after a soft reset of the same slot the stage table stays at its defaults (R126, R138; that
the write is still answered OK is log entry 26). That term B's code and details are checked whatever the join is log
entry 15. -/
def Obligations.StageTraceAndCueWritesAct : Prop :=
  ∀ (s : State),
    let refuse (st : Status) : Out := .next (s.respond { status := st, data := [] })
    let ok (t : State) : Out := .next (t.respond { status := .ok, data := [] })
    let setting (t : TraceSettings) : Out := ok { s with capture := { s.capture with settings := t } }
    let running := s.capture.state = .run ∨ s.capture.state = .post
    let term (w : BitVec 32) : Option Term :=
      match (w.extractLsb' 24 8).toNat with
      | 0 => if w.extractLsb' 16 8 = 0 then some (.windowHit (w.extractLsb' 0 16)) else none
      | 1 => if w.extractLsb' 22 2 = 0 then some (.violation (w.extractLsb' 0 22)) else none
      | 2 => some .guard
      | 3 => some (.cueEdge (w.extractLsb' 0 2) (if w.getLsbD 4 then .falling else .rising))
      | 4 => some .interval
      | 5 => some .always
      | 6 =>
        if (w.extractLsb' 8 8).toNat ≤ 3 ∧ (w.extractLsb' 0 8).toNat ≤ 1 then
          some (.level (w.extractLsb' 8 2) (w.getLsbD 0))
        else none
      | _ => none
    let isLevel (x : Term) : Prop := ∃ p high, x = .level p high
    let actions (k : Nat) (v : BitVec 160) : StageActions :=
      { startCapture := v.getLsbD k, stopCapture := v.getLsbD (k + 1), trigger := v.getLsbD (k + 2)
        cue := v.getLsbD (k + 3), alert := v.getLsbD (k + 4) }
    (∀ (n : Byte) (v : BitVec 160) (h : n.toNat < 8), s.Serves (.writeStage n v) →
      let byte (k : Nat) : Nat := (v.extractLsb' (8 * (19 - k)) 8).toNat
      let a := term (v.extractLsb' 128 32)
      let b := term (v.extractLsb' 88 32)
      (s.seq.state = .armed → exec (.writeStage n v) s = refuse .busy) ∧
      (s.seq.state ≠ .armed →
        a = none ∨ b = none ∨ 3 ≤ byte 4 ∨ v.extractLsb' 72 16 = 0 ∨ 8 ≤ byte 14 ∨ 8 ≤ byte 15 ∨
          32 ≤ byte 16 ∨ 4 ≤ byte 17 ∨ 32 ≤ byte 18 ∨ 4 ≤ byte 19 ∨
          (∃ x, a = some x ∧ isLevel x) ∨
          (∃ y, b = some y ∧ (byte 4 = 1 ∧ ¬ isLevel y ∨ byte 4 = 2 ∧ isLevel y)) →
        exec (.writeStage n v) s = refuse .range) ∧
      ∀ x y, s.seq.state ≠ .armed → a = some x → b = some y → byte 4 < 3 → v.extractLsb' 72 16 ≠ 0 →
        byte 14 < 8 → byte 15 < 8 → byte 16 < 32 → byte 17 < 4 → byte 18 < 32 → byte 19 < 4 →
        ¬ isLevel x → (byte 4 = 1 → isLevel y) → (byte 4 = 2 → ¬ isLevel y) →
        exec (.writeStage n v) s =
          let stage : Stage :=
            { termA := x
              join := if byte 4 = 0 then .none else if byte 4 = 1 then .andLevel else .or
              termB := y, n := v.extractLsb' 72 16, t := v.extractLsb' 48 24
              nextCondition := v.extractLsb' 40 3, nextTimeout := v.extractLsb' 32 3
              condActions := actions 24 v, condPin := v.extractLsb' 16 2
              timeoutActions := actions 8 v, timeoutPin := v.extractLsb' 0 2 }
          ok
            (if s.turns.softReset = true then s
             else { s with seq := { s.seq with stages := s.seq.stages.set n.toNat stage } })) ∧
    (∀ v : BitVec 16,
      let c := (v.extractLsb' 0 8).toNat
      let t := s.capture.settings
      (s.Serves (.writeTraceSetting 0 v) → exec (.writeTraceSetting 0 v) s =
        (if running then refuse .busy
         else if c ≤ 1 then setting { t with storeMode := if c = 1 then .wrap else .stop }
         else refuse .range)) ∧
      (s.Serves (.writeTraceSetting 1 v) → exec (.writeTraceSetting 1 v) s =
        (if running then refuse .busy
         else if c = 0 then setting { t with arbiterMode := .fixed }
         else if c = 1 then
          ok { s with capture := { s.capture with
            settings := { t with arbiterMode := .rotating }
            rotation := [.event, .access, .marker] } }
         else refuse .range)) ∧
      (s.Serves (.writeTraceSetting 2 v) → exec (.writeTraceSetting 2 v) s =
        (if c ≤ 1 then setting { t with captureAll := decide (c = 1) } else refuse .range)) ∧
      (s.Serves (.writeTraceSetting 3 v) → exec (.writeTraceSetting 3 v) s =
        (if c ≤ 1 then setting { t with captureAllData := decide (c = 1) } else refuse .range)) ∧
      (s.Serves (.writeTraceSetting 4 v) → exec (.writeTraceSetting 4 v) s =
        (if c < 32 then
          setting { t with classes :=
            { violation := v.getLsbD 0, guard := v.getLsbD 1, stage := v.getLsbD 2, cue := v.getLsbD 3
              channel := v.getLsbD 4 } }
         else refuse .range)) ∧
      (s.Serves (.writeTraceSetting 5 v) → exec (.writeTraceSetting 5 v) s =
        (if v.toNat ≤ 4095 then setting { t with postFill := v.setWidth 12 } else refuse .range)) ∧
      (s.Serves (.writeTraceSetting 6 v) → exec (.writeTraceSetting 6 v) s =
        (if c ≤ 1 then setting { t with markers := decide (c = 1) } else refuse .range))) ∧
    ∀ (n : Byte) (v : BitVec 32) (h : n.toNat < 4), s.Serves (.writeCue n v) →
      let function := v.extractLsb' 24 8
      let width := v.extractLsb' 0 8
      exec (.writeCue n v) s =
        if 4 ≤ function.toNat ∨ 2 ≤ (v.extractLsb' 16 8).toNat ∨ width = 0 then refuse .range
        else
          let c := s.cues[n.toNat]
          let f : CueFunction := match function.toNat with
            | 0 => .port
            | 1 => .seqCue
            | 2 => .windowCue
            | _ => .alertMirror
          let written : Cue :=
            { c with
              function := f, out := v.getLsbD 16, latch := v.getLsbD 8, width := width
              remaining := if c.function = f then c.remaining else 0
              active := c.active && decide (c.function = f) }
          ok { s with cues := s.cues.set n.toNat written }

/-- WRITE ITEM (R189, R185): no group, a read-only group or an index outside the group is refused with RANGE and
changes nothing; otherwise the write is the owning group's write of its value bytes; with fewer value bytes
than the group carries the frame ended early and changes nothing (log entry 22). In every case it
completes, and leaves shadow, counter, forwarding, latches, store, counts and sequencer state. -/
def Obligations.WriteItemReachesItsGroup : Prop :=
  ∀ (s : State) (group index : Byte) (value : List Byte), s.porst = false →
    (s.Serves (.writeItem group index value) →
      (¬ (1 ≤ group.toNat ∧ group.toNat ≤ 8) ∨
        groupIndices group ≤ index.toNat ∧ writeBytes group ≤ value.length) →
      exec (.writeItem group index value) s = .next (s.respond { status := .range, data := [] })) ∧
    (writeBytes group ≤ value.length → index.toNat < groupIndices group →
      (group = 1 → ∀ v : Byte, ofBytes 1 value = v →
        exec (.writeItem group index value) s =
          match index.toNat with
          | 0 => exec (.writeAddressMap .order v) s
          | 1 => exec (.writeAddressMap .rowWidth v) s
          | 2 => exec (.writeAddressMap .columnWidth v) s
          | _ => exec (.writeBlindPolicy v) s) ∧
      (group = 2 → exec (.writeItem group index value) s = exec (.writeRule index (ofBytes 3 value)) s) ∧
      (group = 3 →
        exec (.writeItem group index value) s = exec (.writeWindow index (ofBytes 35 value)) s) ∧
      (group = 4 →
        exec (.writeItem group index value) s = exec (.writeStage index (ofBytes 20 value)) s) ∧
      (group = 5 →
        exec (.writeItem group index value) s = exec (.writeTraceSetting index (ofBytes 2 value)) s) ∧
      (group = 6 →
        exec (.writeItem group index value) s = exec (.writeAlertEnables (ofBytes 3 value)) s) ∧
      (group = 7 → exec (.writeItem group index value) s = exec (.writeCue index (ofBytes 4 value)) s) ∧
      (group = 8 → exec (.writeItem group index value) s = exec (.writeTime (ofBytes 7 value)) s)) ∧
    (value.length < writeBytes group →
      exec (.writeItem group index value) s =
        .next { s with port := { s.port with frame := .idle, bits := [], reply := .filler } }) ∧
    ∃ t, exec (.writeItem group index value) s = .next t ∧ s.SameShadow t ∧ t.now = s.now ∧
      t.fwd = s.fwd ∧ t.alert.latches = s.alert.latches ∧ t.capture.store = s.capture.store ∧
      t.checker.counts = s.checker.counts ∧ t.seq.state = s.seq.state ∧ t.seq.queue = s.seq.queue

/-- READ ITEM of the writable items (R14, R63, R64, R90, R91, R104, R123, R147, R168, R173, R174, R181, R193, 11.2): the
value that READ ITEM returns for one of them, read as a write of that item reads it, gives the very fields held; and
the parts that only a read returns stand where 11.2 has them: a window's lock state, revision mark and hit counter, a
pin's level, and the slot counter in TIME. -/
def Obligations.ItemsReadBackAsWritten : Prop :=
  (∀ (s : State) (index : Byte) (l : List Byte), s.itemBytes 0x01 index = some l → s.map.Inv →
    (index = 0 → ∃ v, l = [v] ∧ mapWith s.map .order v = some s.map) ∧
    (index = 1 → ∃ v, l = [v] ∧ mapWith s.map .rowWidth v = some s.map ∧ v.toNat = s.map.rowBits) ∧
    (index = 2 → ∃ v, l = [v] ∧ mapWith s.map .columnWidth v = some s.map ∧ v.toNat = s.map.colBits) ∧
    (index = 3 → ∃ v, l = [v] ∧ blindPolicyOf v = some s.blind)) ∧
  (∀ (s : State) (n : Fin 22) (l : List Byte), s.itemBytes 0x02 (BitVec.ofNat 8 n.val) = some l →
    let r := s.checker.rules[n]
    ruleInRange n.val r.value r.value2 = true → (12 ≤ n.val → r.value = 0) → (n.val ≠ 11 → r.value2 = 0) →
    ruleOf n.val (ofBytes 3 l) = some r) ∧
  (∀ (s : State) (k : Fin 16) (l : List Byte), s.itemBytes 0x03 (BitVec.ofNat 8 k.val) = some l →
    let w := s.windows[k]
    w.Inv → windowOf (ofBytes 35 l) = some w.fields ∧
      (l.getD 0 0).getLsbD 6 = w.locked ∧ (l.getD 0 0).getLsbD 7 = w.revised ∧
      (ofBytes 4 (l.drop 31)).toNat = w.hitCount) ∧
  (∀ (s : State) (k : Fin 8) (l : List Byte), s.itemBytes 0x04 (BitVec.ofNat 8 k.val) = some l →
    s.seq.stages[k].Inv → stageFrom (ofBytes 20 l) = some s.seq.stages[k]) ∧
  (∀ (s : State) (index : Byte) (l : List Byte), s.itemBytes 0x05 index = some l →
    let v := ofBytes 2 l
    let t := s.capture.settings
    (index = 0 → v = if t.storeMode = .wrap then 1 else 0) ∧
    (index = 1 → v = if t.arbiterMode = .rotating then 1 else 0) ∧
    (index = 2 → v = if t.captureAll then 1 else 0) ∧
    (index = 3 → v = if t.captureAllData then 1 else 0) ∧
    (index = 4 → classesOf (v.setWidth 8) = some t.classes ∧ v.toNat < 32) ∧
    (index = 5 → postFillOf v = some t.postFill) ∧
    (index = 6 → v = if t.markers then 1 else 0)) ∧
  (∀ (s : State) (l : List Byte), s.itemBytes 0x06 0 = some l →
    alertEnablesOf (ofBytes 3 l) = some (s.alert.globalOn, s.alert.enables)) ∧
  (∀ (s : State) (p : Fin 4) (l : List Byte), s.itemBytes 0x07 (BitVec.ofNat 8 p.val) = some l →
    let c := s.cues[p]
    c.Inv →
      cueOf (ofBytes 4 l) = some { function := c.function, out := c.out, latch := c.latch, width := c.width } ∧
      (l.getD 2 0).getLsbD 7 = s.pinLevel (BitVec.ofFin p)) ∧
  ∀ (s : State) (l : List Byte), s.itemBytes 0x08 0 = some l →
    ∃ v, l = v :: toBytes 6 s.now ∧ ofBytes 6 (l.drop 1) = s.now ∧ intervalOf v = some s.interval ∧ v.toNat < 4
end

