-- ==== Sys2Proof/Laws/Layout.lean ====
section
/-! SUPPORT. The bytes of values and of trace records: lengths, digits, and the units said by their places (R193,
R194). -/
namespace Sys2Proof.Machine

@[simp] theorem toBytes_length {w : Nat} (count : Nat) (v : BitVec w) : (toBytes count v).length = count := by
  simp [toBytes]

@[simp] theorem natBytes_length (count n : Nat) : (natBytes count n).length = count := by simp [natBytes]

theorem padTo_length (n : Nat) (l : List Byte) (h : l.length ≤ n) : (padTo n l).length = n := by
  simp [padTo, h]

/-- A value's bytes are its digits to base 256, the most significant first. -/
theorem toBytes_digits {w : Nat} (count : Nat) (v : BitVec w) :
    toBytes count v = (List.range count).map fun i => BitVec.ofNat 8 (v.toNat / 256 ^ (count - 1 - i)) := by
  refine List.map_congr_left fun i _ => BitVec.eq_of_toNat_eq ?_
  rw [BitVec.extractLsb'_toNat, BitVec.toNat_ofNat, Nat.shiftRight_eq_div_pow, Nat.pow_mul]

/-- A byte list filled up is read place by place. -/
theorem padTo_places (n : Nat) (l : List Byte) (h : l.length ≤ n) :
    padTo n l = (List.range n).map fun i => l[i]?.getD 0 := by
  apply List.ext_getElem (by simp [padTo, h])
  intro i h1 h2
  simp only [padTo, List.getElem_append, List.getElem_map, List.getElem_range]
  split
  · next hi => simp [List.getElem?_eq_getElem hi]
  · next hi => simp [List.getElem?_eq_none (Nat.not_lt.mp hi)]

/-- The data units of the beats from the third on. -/
theorem dataUnits_cons_cons (a b : CapturedBeat × LaneSet) (l : List (CapturedBeat × LaneSet)) :
    dataUnits (a :: b :: l) = (toBytes 8 a.1.data ++ toBytes 8 b.1.data) :: dataUnits l := by
  simp [dataUnits]

theorem dataUnits_length (l : List (CapturedBeat × LaneSet)) : (dataUnits l).length = (l.length + 1) / 2 := by
  match l with
  | [] => rfl
  | [_] => simp [dataUnits]
  | a :: b :: l =>
    rw [dataUnits_cons_cons, List.length_cons, dataUnits_length l]
    simp only [List.length_cons]
    omega

/-- Each data unit is 16 bytes. -/
theorem dataUnits_whole (l : List (CapturedBeat × LaneSet)) : ∀ u ∈ dataUnits l, u.length = 16 := by
  match l with
  | [] => simp [dataUnits]
  | [a] => simp [dataUnits, padTo]
  | a :: b :: l =>
    rw [dataUnits_cons_cons]
    simpa using dataUnits_whole l

/-- Data unit `u` holds the captured beats `2 u` and `2 u + 1`; one that is missing reads 0. -/
theorem dataUnits_places (l : List (CapturedBeat × LaneSet)) :
    dataUnits l = (List.range ((l.length + 1) / 2)).map fun u =>
      toBytes 8 ((l[2 * u]?.map fun x => x.1.data).getD 0) ++
        toBytes 8 ((l[2 * u + 1]?.map fun x => x.1.data).getD 0) := by
  match l with
  | [] => rfl
  | [a] =>
    have zero : List.replicate 8 (0 : Byte) = toBytes 8 (0 : BeatData) := by decide
    simpa [dataUnits, padTo] using zero
  | a :: b :: l =>
    have half : (l.length + 1 + 1 + 1) / 2 = (l.length + 1) / 2 + 1 := by omega
    rw [dataUnits_cons_cons, dataUnits_places l, List.length_cons, List.length_cons, half,
      List.range_succ_eq_map, List.map_cons, List.map_map]
    simp [Nat.mul_add, Function.comp_def]

/-- The mask unit is 16 bytes while at most 8 beats are captured. -/
theorem maskUnit_length (l : List (CapturedBeat × LaneSet)) (h : l.length ≤ 8) : (maskUnit l).length = 16 := by
  simp only [maskUnit, List.length_append]
  rw [padTo_length _ _ (by simpa using h), padTo_length _ _ (by simpa using h)]

end Sys2Proof.Machine
end

