-- ==== Sys2Proof/Laws/Sets.lean ====
section
/-! SUPPORT. What the sets, the free merges and the slot arithmetic give, once. -/
namespace Sys2Proof.Machine

/-! ### Sets as bit fields -/

theorem getLsbD_setBelow (w : Nat) (f : Nat → Bool) (k i : Nat) (hk : k ≤ w) :
    (setBelow w f k).getLsbD i = (decide (i < k) && f i) := by
  induction k with
  | zero => simp [setBelow]
  | succ k ih =>
    rw [setBelow, BitVec.getLsbD_or, ih (by omega)]
    by_cases hf : f k = true
    · simp only [hf, if_true, BitVec.getLsbD_twoPow]
      rcases Nat.lt_trichotomy i k with h | h | h
      · simp [h, show i < k + 1 by omega, show ¬ k = i by omega]
      · subst h; simp [hf, show i < w by omega]
      · simp [show ¬ i < k by omega, show ¬ i < k + 1 by omega, show ¬ k = i by omega]
    · simp only [hf]
      rcases Nat.lt_trichotomy i k with h | h | h
      · simp [h, show i < k + 1 by omega]
      · subst h; simp [Bool.not_eq_true] at hf; simp [hf]
      · simp [show ¬ i < k by omega, show ¬ i < k + 1 by omega]

/-- A member of a set built from a test. -/
theorem getLsbD_setOf (w : Nat) (f : Nat → Bool) (i : Nat) :
    (setOf w f).getLsbD i = (decide (i < w) && f i) :=
  getLsbD_setBelow w f w i (Nat.le_refl w)

theorem getLsbD_setOf_fin (w : Nat) (f : Nat → Bool) (i : Fin w) : (setOf w f).getLsbD i.val = f i.val := by
  rw [getLsbD_setOf]; simp only [i.isLt, decide_true, Bool.true_and]

@[simp] theorem mem_members {w : Nat} (s : BitVec w) (i : Fin w) :
    i ∈ members s ↔ s.getLsbD i.val = true := by
  simp [members]

theorem members_sorted {w : Nat} (s : BitVec w) : (members s).Pairwise (· < ·) :=
  (List.pairwise_lt_finRange w).filter _

theorem members_eq_nil {w : Nat} (s : BitVec w) : members s = [] ↔ s = 0 := by
  constructor
  · intro h
    apply BitVec.eq_of_getLsbD_eq
    intro i hi
    have : (⟨i, hi⟩ : Fin w) ∉ members s := by simp [h]
    simpa using this
  · rintro rfl
    simp [members]

/-! ### Merges in a free order (log entry 3) -/

theorem mergeFree_length {α : Type} (n fuel k : Nat) (xs ys : List α) :
    (mergeFree n fuel k xs ys).length = xs.length + ys.length := by
  induction fuel generalizing k xs ys with
  | zero => simp [mergeFree]
  | succ fuel ih =>
    cases xs with
    | nil => simp [mergeFree]
    | cons x xs =>
      cases ys with
      | nil => simp [mergeFree]
      | cons y ys =>
        simp only [mergeFree]
        split <;> simp [ih] <;> omega

theorem mergeFree_perm {α : Type} (n fuel k : Nat) (xs ys : List α) :
    (mergeFree n fuel k xs ys).Perm (xs ++ ys) := by
  induction fuel generalizing k xs ys with
  | zero => simp [mergeFree]
  | succ fuel ih =>
    cases xs with
    | nil => simp [mergeFree]
    | cons x xs =>
      cases ys with
      | nil => simp [mergeFree]
      | cons y ys =>
        simp only [mergeFree]
        split
        · exact (ih _ _ _).cons x
        · exact ((ih _ _ _).cons y).trans List.perm_middle.symm

/-- Whatever the free order, a merge holds the elements of both lists. -/
theorem merged_perm {α : Type} (n : Nat) (xs ys : List α) : (merged n xs ys).Perm (xs ++ ys) :=
  mergeFree_perm n _ 0 xs ys

/-- Each list keeps its own order in a merge. -/
theorem mergeFree_sublist {α : Type} (n fuel k : Nat) (xs ys : List α) :
    xs.Sublist (mergeFree n fuel k xs ys) ∧ ys.Sublist (mergeFree n fuel k xs ys) := by
  induction fuel generalizing k xs ys with
  | zero => simp [mergeFree]
  | succ fuel ih =>
    cases xs with
    | nil => simp [mergeFree]
    | cons x xs =>
      cases ys with
      | nil => simp [mergeFree]
      | cons y ys =>
        simp only [mergeFree]
        split
        · exact ⟨(ih _ _ _).1.cons_cons x, (ih _ _ _).2.cons x⟩
        · exact ⟨(ih _ _ _).1.cons y, (ih _ _ _).2.cons_cons y⟩

@[simp] theorem merged_nil_left {α : Type} (n : Nat) (ys : List α) : merged n [] ys = ys := by
  cases ys <;> simp [merged, mergeFree]

@[simp] theorem merged_nil_right {α : Type} (n : Nat) (xs : List α) : merged n xs [] = xs := by
  cases xs <;> simp [merged, mergeFree]

/-! ### Slots (R178) -/

theorem spacing_self (a : Slot) : spacing a a = 0 := by simp [spacing]

theorem slotBefore_irrefl (a : Slot) : slotBefore a a = false := by simp [slotBefore, spacing_self]

/-- A slot a few slots later lies that many slots after. -/
theorem spacing_slotPlus (a : Slot) (n : Nat) (h : n < 2 ^ 47) : spacing a (slotPlus a n) = n := by
  have e : a + BitVec.ofNat 48 n - a = BitVec.ofNat 48 n := by
    rw [BitVec.add_comm, BitVec.add_sub_cancel]
  rw [spacing, slotPlus, e, BitVec.toInt_eq_toNat_cond, BitVec.toNat_ofNat, Nat.mod_eq_of_lt (by omega)]
  split <;> omega

/-! ### Rule judgements -/

/-- Rule `n` is broken exactly when it is enabled, judged in the channel state found, and its condition
holds. -/
theorem brokenRules_getLsbD (s : State) (c : Cmd) (n : Fin 22) :
    (brokenRules s c).getLsbD n.val =
      (s.ruleOn n.val && judgedIn s.chan n.val && breaksRule s c n.val) := by
  rw [brokenRules, getLsbD_setOf_fin]

end Sys2Proof.Machine
end

