-- ==== Sys2Proof/Laws/State.lean ====
section
/-! SUPPORT. What each plain update of the state does to each field, true by `rfl`: no later proof unfolds
a record update. -/
namespace Sys2Proof.Machine
variable (s : State)

/-! ### setBank -/

@[simp] theorem State.setBank_porst (b : BankNo) (e : Bank) : (s.setBank b e).porst = s.porst := rfl
@[simp] theorem State.setBank_now (b : BankNo) (e : Bank) : (s.setBank b e).now = s.now := rfl
@[simp] theorem State.setBank_turns (b : BankNo) (e : Bank) : (s.setBank b e).turns = s.turns := rfl
@[simp] theorem State.setBank_fwd (b : BankNo) (e : Bank) : (s.setBank b e).fwd = s.fwd := rfl
@[simp] theorem State.setBank_map (b : BankNo) (e : Bank) : (s.setBank b e).map = s.map := rfl
@[simp] theorem State.setBank_blind (b : BankNo) (e : Bank) : (s.setBank b e).blind = s.blind := rfl
@[simp] theorem State.setBank_chan (b : BankNo) (e : Bank) : (s.setBank b e).chan = s.chan := rfl
@[simp] theorem State.setBank_banks (b : BankNo) (e : Bank) : (s.setBank b e).banks =
    s.banks.set b.toNat e b.isLt := rfl
@[simp] theorem State.setBank_modes (b : BankNo) (e : Bank) : (s.setBank b e).modes = s.modes := rfl
@[simp] theorem State.setBank_tracker (b : BankNo) (e : Bank) : (s.setBank b e).tracker =
    s.tracker := rfl
@[simp] theorem State.setBank_waiting (b : BankNo) (e : Bank) : (s.setBank b e).waiting =
    s.waiting := rfl
@[simp] theorem State.setBank_nextNumber (b : BankNo) (e : Bank) : (s.setBank b e).nextNumber =
    s.nextNumber := rfl
@[simp] theorem State.setBank_checker (b : BankNo) (e : Bank) : (s.setBank b e).checker =
    s.checker := rfl
@[simp] theorem State.setBank_windows (b : BankNo) (e : Bank) : (s.setBank b e).windows =
    s.windows := rfl
@[simp] theorem State.setBank_seq (b : BankNo) (e : Bank) : (s.setBank b e).seq = s.seq := rfl
@[simp] theorem State.setBank_capture (b : BankNo) (e : Bank) : (s.setBank b e).capture =
    s.capture := rfl
@[simp] theorem State.setBank_alert (b : BankNo) (e : Bank) : (s.setBank b e).alert = s.alert := rfl
@[simp] theorem State.setBank_cues (b : BankNo) (e : Bank) : (s.setBank b e).cues = s.cues := rfl
@[simp] theorem State.setBank_interval (b : BankNo) (e : Bank) : (s.setBank b e).interval =
    s.interval := rfl
@[simp] theorem State.setBank_port (b : BankNo) (e : Bank) : (s.setBank b e).port = s.port := rfl
@[simp] theorem State.setBank_free (b : BankNo) (e : Bank) : (s.setBank b e).free = s.free := rfl
@[simp] theorem State.setBank_wires (b : BankNo) (e : Bank) : (s.setBank b e).wires = s.wires := rfl
@[simp] theorem State.setBank_pending (b : BankNo) (e : Bank) : (s.setBank b e).pending =
    s.pending := rfl

/-! ### mapBanks -/

@[simp] theorem State.mapBanks_porst (f : Bank → Bank) : (s.mapBanks f).porst = s.porst := rfl
@[simp] theorem State.mapBanks_now (f : Bank → Bank) : (s.mapBanks f).now = s.now := rfl
@[simp] theorem State.mapBanks_turns (f : Bank → Bank) : (s.mapBanks f).turns = s.turns := rfl
@[simp] theorem State.mapBanks_fwd (f : Bank → Bank) : (s.mapBanks f).fwd = s.fwd := rfl
@[simp] theorem State.mapBanks_map (f : Bank → Bank) : (s.mapBanks f).map = s.map := rfl
@[simp] theorem State.mapBanks_blind (f : Bank → Bank) : (s.mapBanks f).blind = s.blind := rfl
@[simp] theorem State.mapBanks_chan (f : Bank → Bank) : (s.mapBanks f).chan = s.chan := rfl
@[simp] theorem State.mapBanks_banks (f : Bank → Bank) : (s.mapBanks f).banks =
    Vector.ofFn fun k => f s.banks[k] := rfl
@[simp] theorem State.mapBanks_modes (f : Bank → Bank) : (s.mapBanks f).modes = s.modes := rfl
@[simp] theorem State.mapBanks_tracker (f : Bank → Bank) : (s.mapBanks f).tracker = s.tracker := rfl
@[simp] theorem State.mapBanks_waiting (f : Bank → Bank) : (s.mapBanks f).waiting = s.waiting := rfl
@[simp] theorem State.mapBanks_nextNumber (f : Bank → Bank) : (s.mapBanks f).nextNumber =
    s.nextNumber := rfl
@[simp] theorem State.mapBanks_checker (f : Bank → Bank) : (s.mapBanks f).checker = s.checker := rfl
@[simp] theorem State.mapBanks_windows (f : Bank → Bank) : (s.mapBanks f).windows = s.windows := rfl
@[simp] theorem State.mapBanks_seq (f : Bank → Bank) : (s.mapBanks f).seq = s.seq := rfl
@[simp] theorem State.mapBanks_capture (f : Bank → Bank) : (s.mapBanks f).capture = s.capture := rfl
@[simp] theorem State.mapBanks_alert (f : Bank → Bank) : (s.mapBanks f).alert = s.alert := rfl
@[simp] theorem State.mapBanks_cues (f : Bank → Bank) : (s.mapBanks f).cues = s.cues := rfl
@[simp] theorem State.mapBanks_interval (f : Bank → Bank) : (s.mapBanks f).interval =
    s.interval := rfl
@[simp] theorem State.mapBanks_port (f : Bank → Bank) : (s.mapBanks f).port = s.port := rfl
@[simp] theorem State.mapBanks_free (f : Bank → Bank) : (s.mapBanks f).free = s.free := rfl
@[simp] theorem State.mapBanks_wires (f : Bank → Bank) : (s.mapBanks f).wires = s.wires := rfl
@[simp] theorem State.mapBanks_pending (f : Bank → Bank) : (s.mapBanks f).pending = s.pending := rfl

/-! ### setCue -/

@[simp] theorem State.setCue_porst (p : PinNo) (c : Cue) : (s.setCue p c).porst = s.porst := rfl
@[simp] theorem State.setCue_now (p : PinNo) (c : Cue) : (s.setCue p c).now = s.now := rfl
@[simp] theorem State.setCue_turns (p : PinNo) (c : Cue) : (s.setCue p c).turns = s.turns := rfl
@[simp] theorem State.setCue_fwd (p : PinNo) (c : Cue) : (s.setCue p c).fwd = s.fwd := rfl
@[simp] theorem State.setCue_map (p : PinNo) (c : Cue) : (s.setCue p c).map = s.map := rfl
@[simp] theorem State.setCue_blind (p : PinNo) (c : Cue) : (s.setCue p c).blind = s.blind := rfl
@[simp] theorem State.setCue_chan (p : PinNo) (c : Cue) : (s.setCue p c).chan = s.chan := rfl
@[simp] theorem State.setCue_banks (p : PinNo) (c : Cue) : (s.setCue p c).banks = s.banks := rfl
@[simp] theorem State.setCue_modes (p : PinNo) (c : Cue) : (s.setCue p c).modes = s.modes := rfl
@[simp] theorem State.setCue_tracker (p : PinNo) (c : Cue) : (s.setCue p c).tracker =
    s.tracker := rfl
@[simp] theorem State.setCue_waiting (p : PinNo) (c : Cue) : (s.setCue p c).waiting =
    s.waiting := rfl
@[simp] theorem State.setCue_nextNumber (p : PinNo) (c : Cue) : (s.setCue p c).nextNumber =
    s.nextNumber := rfl
@[simp] theorem State.setCue_checker (p : PinNo) (c : Cue) : (s.setCue p c).checker =
    s.checker := rfl
@[simp] theorem State.setCue_windows (p : PinNo) (c : Cue) : (s.setCue p c).windows =
    s.windows := rfl
@[simp] theorem State.setCue_seq (p : PinNo) (c : Cue) : (s.setCue p c).seq = s.seq := rfl
@[simp] theorem State.setCue_capture (p : PinNo) (c : Cue) : (s.setCue p c).capture =
    s.capture := rfl
@[simp] theorem State.setCue_alert (p : PinNo) (c : Cue) : (s.setCue p c).alert = s.alert := rfl
@[simp] theorem State.setCue_cues (p : PinNo) (c : Cue) : (s.setCue p c).cues =
    s.cues.set p.toNat c p.isLt := rfl
@[simp] theorem State.setCue_interval (p : PinNo) (c : Cue) : (s.setCue p c).interval =
    s.interval := rfl
@[simp] theorem State.setCue_port (p : PinNo) (c : Cue) : (s.setCue p c).port = s.port := rfl
@[simp] theorem State.setCue_free (p : PinNo) (c : Cue) : (s.setCue p c).free = s.free := rfl
@[simp] theorem State.setCue_wires (p : PinNo) (c : Cue) : (s.setCue p c).wires = s.wires := rfl
@[simp] theorem State.setCue_pending (p : PinNo) (c : Cue) : (s.setCue p c).pending =
    s.pending := rfl

/-! ### setLatch -/

@[simp] theorem State.setLatch_porst (c : Cause) : (s.setLatch c).porst = s.porst := rfl
@[simp] theorem State.setLatch_now (c : Cause) : (s.setLatch c).now = s.now := rfl
@[simp] theorem State.setLatch_turns (c : Cause) : (s.setLatch c).turns = s.turns := rfl
@[simp] theorem State.setLatch_fwd (c : Cause) : (s.setLatch c).fwd = s.fwd := rfl
@[simp] theorem State.setLatch_map (c : Cause) : (s.setLatch c).map = s.map := rfl
@[simp] theorem State.setLatch_blind (c : Cause) : (s.setLatch c).blind = s.blind := rfl
@[simp] theorem State.setLatch_chan (c : Cause) : (s.setLatch c).chan = s.chan := rfl
@[simp] theorem State.setLatch_banks (c : Cause) : (s.setLatch c).banks = s.banks := rfl
@[simp] theorem State.setLatch_modes (c : Cause) : (s.setLatch c).modes = s.modes := rfl
@[simp] theorem State.setLatch_tracker (c : Cause) : (s.setLatch c).tracker = s.tracker := rfl
@[simp] theorem State.setLatch_waiting (c : Cause) : (s.setLatch c).waiting = s.waiting := rfl
@[simp] theorem State.setLatch_nextNumber (c : Cause) : (s.setLatch c).nextNumber =
    s.nextNumber := rfl
@[simp] theorem State.setLatch_checker (c : Cause) : (s.setLatch c).checker = s.checker := rfl
@[simp] theorem State.setLatch_windows (c : Cause) : (s.setLatch c).windows = s.windows := rfl
@[simp] theorem State.setLatch_seq (c : Cause) : (s.setLatch c).seq = s.seq := rfl
@[simp] theorem State.setLatch_capture (c : Cause) : (s.setLatch c).capture = s.capture := rfl
@[simp] theorem State.setLatch_alert (c : Cause) : (s.setLatch c).alert =
    { s.alert with latches := s.alert.latches ||| c.set } := rfl
@[simp] theorem State.setLatch_cues (c : Cause) : (s.setLatch c).cues = s.cues := rfl
@[simp] theorem State.setLatch_interval (c : Cause) : (s.setLatch c).interval = s.interval := rfl
@[simp] theorem State.setLatch_port (c : Cause) : (s.setLatch c).port = s.port := rfl
@[simp] theorem State.setLatch_free (c : Cause) : (s.setLatch c).free = s.free := rfl
@[simp] theorem State.setLatch_wires (c : Cause) : (s.setLatch c).wires = s.wires := rfl
@[simp] theorem State.setLatch_pending (c : Cause) : (s.setLatch c).pending = s.pending := rfl

/-! ### setChecker -/

@[simp] theorem State.setChecker_porst (c : Checker) : (s.setChecker c).porst = s.porst := rfl
@[simp] theorem State.setChecker_now (c : Checker) : (s.setChecker c).now = s.now := rfl
@[simp] theorem State.setChecker_turns (c : Checker) : (s.setChecker c).turns = s.turns := rfl
@[simp] theorem State.setChecker_fwd (c : Checker) : (s.setChecker c).fwd = s.fwd := rfl
@[simp] theorem State.setChecker_map (c : Checker) : (s.setChecker c).map = s.map := rfl
@[simp] theorem State.setChecker_blind (c : Checker) : (s.setChecker c).blind = s.blind := rfl
@[simp] theorem State.setChecker_chan (c : Checker) : (s.setChecker c).chan = s.chan := rfl
@[simp] theorem State.setChecker_banks (c : Checker) : (s.setChecker c).banks = s.banks := rfl
@[simp] theorem State.setChecker_modes (c : Checker) : (s.setChecker c).modes = s.modes := rfl
@[simp] theorem State.setChecker_tracker (c : Checker) : (s.setChecker c).tracker = s.tracker := rfl
@[simp] theorem State.setChecker_waiting (c : Checker) : (s.setChecker c).waiting = s.waiting := rfl
@[simp] theorem State.setChecker_nextNumber (c : Checker) : (s.setChecker c).nextNumber =
    s.nextNumber := rfl
@[simp] theorem State.setChecker_checker (c : Checker) : (s.setChecker c).checker = c := rfl
@[simp] theorem State.setChecker_windows (c : Checker) : (s.setChecker c).windows = s.windows := rfl
@[simp] theorem State.setChecker_seq (c : Checker) : (s.setChecker c).seq = s.seq := rfl
@[simp] theorem State.setChecker_capture (c : Checker) : (s.setChecker c).capture = s.capture := rfl
@[simp] theorem State.setChecker_alert (c : Checker) : (s.setChecker c).alert = s.alert := rfl
@[simp] theorem State.setChecker_cues (c : Checker) : (s.setChecker c).cues = s.cues := rfl
@[simp] theorem State.setChecker_interval (c : Checker) : (s.setChecker c).interval =
    s.interval := rfl
@[simp] theorem State.setChecker_port (c : Checker) : (s.setChecker c).port = s.port := rfl
@[simp] theorem State.setChecker_free (c : Checker) : (s.setChecker c).free = s.free := rfl
@[simp] theorem State.setChecker_wires (c : Checker) : (s.setChecker c).wires = s.wires := rfl
@[simp] theorem State.setChecker_pending (c : Checker) : (s.setChecker c).pending = s.pending := rfl

/-! ### setSeq -/

@[simp] theorem State.setSeq_porst (q : Sequencer) : (s.setSeq q).porst = s.porst := rfl
@[simp] theorem State.setSeq_now (q : Sequencer) : (s.setSeq q).now = s.now := rfl
@[simp] theorem State.setSeq_turns (q : Sequencer) : (s.setSeq q).turns = s.turns := rfl
@[simp] theorem State.setSeq_fwd (q : Sequencer) : (s.setSeq q).fwd = s.fwd := rfl
@[simp] theorem State.setSeq_map (q : Sequencer) : (s.setSeq q).map = s.map := rfl
@[simp] theorem State.setSeq_blind (q : Sequencer) : (s.setSeq q).blind = s.blind := rfl
@[simp] theorem State.setSeq_chan (q : Sequencer) : (s.setSeq q).chan = s.chan := rfl
@[simp] theorem State.setSeq_banks (q : Sequencer) : (s.setSeq q).banks = s.banks := rfl
@[simp] theorem State.setSeq_modes (q : Sequencer) : (s.setSeq q).modes = s.modes := rfl
@[simp] theorem State.setSeq_tracker (q : Sequencer) : (s.setSeq q).tracker = s.tracker := rfl
@[simp] theorem State.setSeq_waiting (q : Sequencer) : (s.setSeq q).waiting = s.waiting := rfl
@[simp] theorem State.setSeq_nextNumber (q : Sequencer) : (s.setSeq q).nextNumber =
    s.nextNumber := rfl
@[simp] theorem State.setSeq_checker (q : Sequencer) : (s.setSeq q).checker = s.checker := rfl
@[simp] theorem State.setSeq_windows (q : Sequencer) : (s.setSeq q).windows = s.windows := rfl
@[simp] theorem State.setSeq_seq (q : Sequencer) : (s.setSeq q).seq = q := rfl
@[simp] theorem State.setSeq_capture (q : Sequencer) : (s.setSeq q).capture = s.capture := rfl
@[simp] theorem State.setSeq_alert (q : Sequencer) : (s.setSeq q).alert = s.alert := rfl
@[simp] theorem State.setSeq_cues (q : Sequencer) : (s.setSeq q).cues = s.cues := rfl
@[simp] theorem State.setSeq_interval (q : Sequencer) : (s.setSeq q).interval = s.interval := rfl
@[simp] theorem State.setSeq_port (q : Sequencer) : (s.setSeq q).port = s.port := rfl
@[simp] theorem State.setSeq_free (q : Sequencer) : (s.setSeq q).free = s.free := rfl
@[simp] theorem State.setSeq_wires (q : Sequencer) : (s.setSeq q).wires = s.wires := rfl
@[simp] theorem State.setSeq_pending (q : Sequencer) : (s.setSeq q).pending = s.pending := rfl

/-! ### setCapture -/

@[simp] theorem State.setCapture_porst (c : Capture) : (s.setCapture c).porst = s.porst := rfl
@[simp] theorem State.setCapture_now (c : Capture) : (s.setCapture c).now = s.now := rfl
@[simp] theorem State.setCapture_turns (c : Capture) : (s.setCapture c).turns = s.turns := rfl
@[simp] theorem State.setCapture_fwd (c : Capture) : (s.setCapture c).fwd = s.fwd := rfl
@[simp] theorem State.setCapture_map (c : Capture) : (s.setCapture c).map = s.map := rfl
@[simp] theorem State.setCapture_blind (c : Capture) : (s.setCapture c).blind = s.blind := rfl
@[simp] theorem State.setCapture_chan (c : Capture) : (s.setCapture c).chan = s.chan := rfl
@[simp] theorem State.setCapture_banks (c : Capture) : (s.setCapture c).banks = s.banks := rfl
@[simp] theorem State.setCapture_modes (c : Capture) : (s.setCapture c).modes = s.modes := rfl
@[simp] theorem State.setCapture_tracker (c : Capture) : (s.setCapture c).tracker = s.tracker := rfl
@[simp] theorem State.setCapture_waiting (c : Capture) : (s.setCapture c).waiting = s.waiting := rfl
@[simp] theorem State.setCapture_nextNumber (c : Capture) : (s.setCapture c).nextNumber =
    s.nextNumber := rfl
@[simp] theorem State.setCapture_checker (c : Capture) : (s.setCapture c).checker = s.checker := rfl
@[simp] theorem State.setCapture_windows (c : Capture) : (s.setCapture c).windows = s.windows := rfl
@[simp] theorem State.setCapture_seq (c : Capture) : (s.setCapture c).seq = s.seq := rfl
@[simp] theorem State.setCapture_capture (c : Capture) : (s.setCapture c).capture = c := rfl
@[simp] theorem State.setCapture_alert (c : Capture) : (s.setCapture c).alert = s.alert := rfl
@[simp] theorem State.setCapture_cues (c : Capture) : (s.setCapture c).cues = s.cues := rfl
@[simp] theorem State.setCapture_interval (c : Capture) : (s.setCapture c).interval =
    s.interval := rfl
@[simp] theorem State.setCapture_port (c : Capture) : (s.setCapture c).port = s.port := rfl
@[simp] theorem State.setCapture_free (c : Capture) : (s.setCapture c).free = s.free := rfl
@[simp] theorem State.setCapture_wires (c : Capture) : (s.setCapture c).wires = s.wires := rfl
@[simp] theorem State.setCapture_pending (c : Capture) : (s.setCapture c).pending = s.pending := rfl

/-! ### updateEntry -/

@[simp] theorem State.updateEntry_porst (n : Nat) (f : Entry → Entry) : (s.updateEntry n f).porst =
    s.porst := rfl
@[simp] theorem State.updateEntry_now (n : Nat) (f : Entry → Entry) : (s.updateEntry n f).now =
    s.now := rfl
@[simp] theorem State.updateEntry_turns (n : Nat) (f : Entry → Entry) : (s.updateEntry n f).turns =
    s.turns := rfl
@[simp] theorem State.updateEntry_fwd (n : Nat) (f : Entry → Entry) : (s.updateEntry n f).fwd =
    s.fwd := rfl
@[simp] theorem State.updateEntry_map (n : Nat) (f : Entry → Entry) : (s.updateEntry n f).map =
    s.map := rfl
@[simp] theorem State.updateEntry_blind (n : Nat) (f : Entry → Entry) : (s.updateEntry n f).blind =
    s.blind := rfl
@[simp] theorem State.updateEntry_chan (n : Nat) (f : Entry → Entry) : (s.updateEntry n f).chan =
    s.chan := rfl
@[simp] theorem State.updateEntry_banks (n : Nat) (f : Entry → Entry) : (s.updateEntry n f).banks =
    s.banks := rfl
@[simp] theorem State.updateEntry_modes (n : Nat) (f : Entry → Entry) : (s.updateEntry n f).modes =
    s.modes := rfl
@[simp] theorem State.updateEntry_tracker (n : Nat) (f : Entry → Entry) : (s.updateEntry n f).tracker =
    s.tracker.map fun e => if e.number == n then f e else e := rfl
@[simp] theorem State.updateEntry_waiting (n : Nat) (f : Entry → Entry) : (s.updateEntry n f).waiting =
    s.waiting := rfl
@[simp] theorem State.updateEntry_nextNumber (n : Nat) (f : Entry → Entry) : (s.updateEntry n f).nextNumber =
    s.nextNumber := rfl
@[simp] theorem State.updateEntry_checker (n : Nat) (f : Entry → Entry) : (s.updateEntry n f).checker =
    s.checker := rfl
@[simp] theorem State.updateEntry_windows (n : Nat) (f : Entry → Entry) : (s.updateEntry n f).windows =
    s.windows := rfl
@[simp] theorem State.updateEntry_seq (n : Nat) (f : Entry → Entry) : (s.updateEntry n f).seq =
    s.seq := rfl
@[simp] theorem State.updateEntry_capture (n : Nat) (f : Entry → Entry) : (s.updateEntry n f).capture =
    s.capture := rfl
@[simp] theorem State.updateEntry_alert (n : Nat) (f : Entry → Entry) : (s.updateEntry n f).alert =
    s.alert := rfl
@[simp] theorem State.updateEntry_cues (n : Nat) (f : Entry → Entry) : (s.updateEntry n f).cues =
    s.cues := rfl
@[simp] theorem State.updateEntry_interval (n : Nat) (f : Entry → Entry) : (s.updateEntry n f).interval =
    s.interval := rfl
@[simp] theorem State.updateEntry_port (n : Nat) (f : Entry → Entry) : (s.updateEntry n f).port =
    s.port := rfl
@[simp] theorem State.updateEntry_free (n : Nat) (f : Entry → Entry) : (s.updateEntry n f).free =
    s.free := rfl
@[simp] theorem State.updateEntry_wires (n : Nat) (f : Entry → Entry) : (s.updateEntry n f).wires =
    s.wires := rfl
@[simp] theorem State.updateEntry_pending (n : Nat) (f : Entry → Entry) : (s.updateEntry n f).pending =
    s.pending := rfl

/-! ### dropEntry -/

@[simp] theorem State.dropEntry_porst (n : Nat) : (s.dropEntry n).porst = s.porst := rfl
@[simp] theorem State.dropEntry_now (n : Nat) : (s.dropEntry n).now = s.now := rfl
@[simp] theorem State.dropEntry_turns (n : Nat) : (s.dropEntry n).turns = s.turns := rfl
@[simp] theorem State.dropEntry_fwd (n : Nat) : (s.dropEntry n).fwd = s.fwd := rfl
@[simp] theorem State.dropEntry_map (n : Nat) : (s.dropEntry n).map = s.map := rfl
@[simp] theorem State.dropEntry_blind (n : Nat) : (s.dropEntry n).blind = s.blind := rfl
@[simp] theorem State.dropEntry_chan (n : Nat) : (s.dropEntry n).chan = s.chan := rfl
@[simp] theorem State.dropEntry_banks (n : Nat) : (s.dropEntry n).banks = s.banks := rfl
@[simp] theorem State.dropEntry_modes (n : Nat) : (s.dropEntry n).modes = s.modes := rfl
@[simp] theorem State.dropEntry_tracker (n : Nat) : (s.dropEntry n).tracker =
    s.tracker.filter fun e => e.number != n := rfl
@[simp] theorem State.dropEntry_waiting (n : Nat) : (s.dropEntry n).waiting = s.waiting := rfl
@[simp] theorem State.dropEntry_nextNumber (n : Nat) : (s.dropEntry n).nextNumber =
    s.nextNumber := rfl
@[simp] theorem State.dropEntry_checker (n : Nat) : (s.dropEntry n).checker = s.checker := rfl
@[simp] theorem State.dropEntry_windows (n : Nat) : (s.dropEntry n).windows = s.windows := rfl
@[simp] theorem State.dropEntry_seq (n : Nat) : (s.dropEntry n).seq = s.seq := rfl
@[simp] theorem State.dropEntry_capture (n : Nat) : (s.dropEntry n).capture = s.capture := rfl
@[simp] theorem State.dropEntry_alert (n : Nat) : (s.dropEntry n).alert = s.alert := rfl
@[simp] theorem State.dropEntry_cues (n : Nat) : (s.dropEntry n).cues = s.cues := rfl
@[simp] theorem State.dropEntry_interval (n : Nat) : (s.dropEntry n).interval = s.interval := rfl
@[simp] theorem State.dropEntry_port (n : Nat) : (s.dropEntry n).port = s.port := rfl
@[simp] theorem State.dropEntry_free (n : Nat) : (s.dropEntry n).free = s.free := rfl
@[simp] theorem State.dropEntry_wires (n : Nat) : (s.dropEntry n).wires = s.wires := rfl
@[simp] theorem State.dropEntry_pending (n : Nat) : (s.dropEntry n).pending = s.pending := rfl

/-! ### respond -/

@[simp] theorem State.respond_porst (a : Answer) : (s.respond a).porst = s.porst := rfl
@[simp] theorem State.respond_now (a : Answer) : (s.respond a).now = s.now := rfl
@[simp] theorem State.respond_turns (a : Answer) : (s.respond a).turns = s.turns := rfl
@[simp] theorem State.respond_fwd (a : Answer) : (s.respond a).fwd = s.fwd := rfl
@[simp] theorem State.respond_map (a : Answer) : (s.respond a).map = s.map := rfl
@[simp] theorem State.respond_blind (a : Answer) : (s.respond a).blind = s.blind := rfl
@[simp] theorem State.respond_chan (a : Answer) : (s.respond a).chan = s.chan := rfl
@[simp] theorem State.respond_banks (a : Answer) : (s.respond a).banks = s.banks := rfl
@[simp] theorem State.respond_modes (a : Answer) : (s.respond a).modes = s.modes := rfl
@[simp] theorem State.respond_tracker (a : Answer) : (s.respond a).tracker = s.tracker := rfl
@[simp] theorem State.respond_waiting (a : Answer) : (s.respond a).waiting = s.waiting := rfl
@[simp] theorem State.respond_nextNumber (a : Answer) : (s.respond a).nextNumber =
    s.nextNumber := rfl
@[simp] theorem State.respond_checker (a : Answer) : (s.respond a).checker = s.checker := rfl
@[simp] theorem State.respond_windows (a : Answer) : (s.respond a).windows = s.windows := rfl
@[simp] theorem State.respond_seq (a : Answer) : (s.respond a).seq = s.seq := rfl
@[simp] theorem State.respond_capture (a : Answer) : (s.respond a).capture = s.capture := rfl
@[simp] theorem State.respond_alert (a : Answer) : (s.respond a).alert = s.alert := rfl
@[simp] theorem State.respond_cues (a : Answer) : (s.respond a).cues = s.cues := rfl
@[simp] theorem State.respond_interval (a : Answer) : (s.respond a).interval = s.interval := rfl
@[simp] theorem State.respond_port (a : Answer) : (s.respond a).port = s.port.settle a := rfl
@[simp] theorem State.respond_free (a : Answer) : (s.respond a).free = s.free := rfl
@[simp] theorem State.respond_wires (a : Answer) : (s.respond a).wires = s.wires := rfl
@[simp] theorem State.respond_pending (a : Answer) : (s.respond a).pending = s.pending := rfl

/-! ### sampleCommand -/

@[simp] theorem State.sampleCommand_porst (w : ChannelWord) : (s.sampleCommand w).porst =
    s.porst := rfl
@[simp] theorem State.sampleCommand_now (w : ChannelWord) : (s.sampleCommand w).now = s.now := rfl
@[simp] theorem State.sampleCommand_turns (w : ChannelWord) : (s.sampleCommand w).turns =
    { s.turns with command := true } := rfl
@[simp] theorem State.sampleCommand_fwd (w : ChannelWord) : (s.sampleCommand w).fwd =
    { s.fwd with rxCommand := some w } := rfl
@[simp] theorem State.sampleCommand_map (w : ChannelWord) : (s.sampleCommand w).map = s.map := rfl
@[simp] theorem State.sampleCommand_blind (w : ChannelWord) : (s.sampleCommand w).blind =
    s.blind := rfl
@[simp] theorem State.sampleCommand_chan (w : ChannelWord) : (s.sampleCommand w).chan =
    s.chan := rfl
@[simp] theorem State.sampleCommand_banks (w : ChannelWord) : (s.sampleCommand w).banks =
    s.banks := rfl
@[simp] theorem State.sampleCommand_modes (w : ChannelWord) : (s.sampleCommand w).modes =
    s.modes := rfl
@[simp] theorem State.sampleCommand_tracker (w : ChannelWord) : (s.sampleCommand w).tracker =
    s.tracker := rfl
@[simp] theorem State.sampleCommand_waiting (w : ChannelWord) : (s.sampleCommand w).waiting =
    s.waiting := rfl
@[simp] theorem State.sampleCommand_nextNumber (w : ChannelWord) : (s.sampleCommand w).nextNumber =
    s.nextNumber := rfl
@[simp] theorem State.sampleCommand_checker (w : ChannelWord) : (s.sampleCommand w).checker =
    s.checker := rfl
@[simp] theorem State.sampleCommand_windows (w : ChannelWord) : (s.sampleCommand w).windows =
    s.windows := rfl
@[simp] theorem State.sampleCommand_seq (w : ChannelWord) : (s.sampleCommand w).seq = s.seq := rfl
@[simp] theorem State.sampleCommand_capture (w : ChannelWord) : (s.sampleCommand w).capture =
    s.capture := rfl
@[simp] theorem State.sampleCommand_alert (w : ChannelWord) : (s.sampleCommand w).alert =
    s.alert := rfl
@[simp] theorem State.sampleCommand_cues (w : ChannelWord) : (s.sampleCommand w).cues =
    s.cues := rfl
@[simp] theorem State.sampleCommand_interval (w : ChannelWord) : (s.sampleCommand w).interval =
    s.interval := rfl
@[simp] theorem State.sampleCommand_port (w : ChannelWord) : (s.sampleCommand w).port =
    s.port := rfl
@[simp] theorem State.sampleCommand_free (w : ChannelWord) : (s.sampleCommand w).free =
    s.free := rfl
@[simp] theorem State.sampleCommand_wires (w : ChannelWord) : (s.sampleCommand w).wires =
    s.wires := rfl
@[simp] theorem State.sampleCommand_pending (w : ChannelWord) : (s.sampleCommand w).pending =
    s.pending := rfl

/-! ### takeWires -/

@[simp] theorem State.takeWires_porst  : (s.takeWires).porst = s.porst := rfl
@[simp] theorem State.takeWires_now  : (s.takeWires).now = s.now := rfl
@[simp] theorem State.takeWires_turns  : (s.takeWires).turns = s.turns := rfl
@[simp] theorem State.takeWires_fwd  : (s.takeWires).fwd = s.fwd := rfl
@[simp] theorem State.takeWires_map  : (s.takeWires).map = s.map := rfl
@[simp] theorem State.takeWires_blind  : (s.takeWires).blind = s.blind := rfl
@[simp] theorem State.takeWires_chan  : (s.takeWires).chan = s.chan := rfl
@[simp] theorem State.takeWires_banks  : (s.takeWires).banks = s.banks := rfl
@[simp] theorem State.takeWires_modes  : (s.takeWires).modes = s.modes := rfl
@[simp] theorem State.takeWires_tracker  : (s.takeWires).tracker = s.tracker := rfl
@[simp] theorem State.takeWires_waiting  : (s.takeWires).waiting = s.waiting := rfl
@[simp] theorem State.takeWires_nextNumber  : (s.takeWires).nextNumber = s.nextNumber := rfl
@[simp] theorem State.takeWires_checker  : (s.takeWires).checker = s.checker := rfl
@[simp] theorem State.takeWires_windows  : (s.takeWires).windows = s.windows := rfl
@[simp] theorem State.takeWires_seq  : (s.takeWires).seq = s.seq := rfl
@[simp] theorem State.takeWires_capture  : (s.takeWires).capture = s.capture := rfl
@[simp] theorem State.takeWires_alert  : (s.takeWires).alert = s.alert := rfl
@[simp] theorem State.takeWires_cues  : (s.takeWires).cues = s.cues := rfl
@[simp] theorem State.takeWires_interval  : (s.takeWires).interval = s.interval := rfl
@[simp] theorem State.takeWires_port  : (s.takeWires).port = s.port.run (s.wires.headD []) := rfl
@[simp] theorem State.takeWires_free  : (s.takeWires).free = s.free := rfl
@[simp] theorem State.takeWires_wires  : (s.takeWires).wires = s.wires.tail := rfl
@[simp] theorem State.takeWires_pending  : (s.takeWires).pending = s.pending := rfl

/-! ### join -/

@[simp] theorem State.join_porst (x y : Offers) : ((s.join x y).1).porst = s.porst := rfl
@[simp] theorem State.join_now (x y : Offers) : ((s.join x y).1).now = s.now := rfl
@[simp] theorem State.join_turns (x y : Offers) : ((s.join x y).1).turns = s.turns := rfl
@[simp] theorem State.join_fwd (x y : Offers) : ((s.join x y).1).fwd = s.fwd := rfl
@[simp] theorem State.join_map (x y : Offers) : ((s.join x y).1).map = s.map := rfl
@[simp] theorem State.join_blind (x y : Offers) : ((s.join x y).1).blind = s.blind := rfl
@[simp] theorem State.join_chan (x y : Offers) : ((s.join x y).1).chan = s.chan := rfl
@[simp] theorem State.join_banks (x y : Offers) : ((s.join x y).1).banks = s.banks := rfl
@[simp] theorem State.join_modes (x y : Offers) : ((s.join x y).1).modes = s.modes := rfl
@[simp] theorem State.join_tracker (x y : Offers) : ((s.join x y).1).tracker = s.tracker := rfl
@[simp] theorem State.join_waiting (x y : Offers) : ((s.join x y).1).waiting = s.waiting := rfl
@[simp] theorem State.join_nextNumber (x y : Offers) : ((s.join x y).1).nextNumber =
    s.nextNumber := rfl
@[simp] theorem State.join_checker (x y : Offers) : ((s.join x y).1).checker = s.checker := rfl
@[simp] theorem State.join_windows (x y : Offers) : ((s.join x y).1).windows = s.windows := rfl
@[simp] theorem State.join_seq (x y : Offers) : ((s.join x y).1).seq = s.seq := rfl
@[simp] theorem State.join_capture (x y : Offers) : ((s.join x y).1).capture = s.capture := rfl
@[simp] theorem State.join_alert (x y : Offers) : ((s.join x y).1).alert = s.alert := rfl
@[simp] theorem State.join_cues (x y : Offers) : ((s.join x y).1).cues = s.cues := rfl
@[simp] theorem State.join_interval (x y : Offers) : ((s.join x y).1).interval = s.interval := rfl
@[simp] theorem State.join_port (x y : Offers) : ((s.join x y).1).port = s.port := rfl
@[simp] theorem State.join_free (x y : Offers) : ((s.join x y).1).free = s.free + 2 := rfl
@[simp] theorem State.join_wires (x y : Offers) : ((s.join x y).1).wires = s.wires := rfl
@[simp] theorem State.join_pending (x y : Offers) : ((s.join x y).1).pending = s.pending := rfl

/-! ### setLatchIf: a latch set under a condition changes the latches alone -/

theorem State.setLatchIf_eq (c : Cause) (b : Bool) :
    s.setLatchIf c b =
      { s with alert := { s.alert with latches := s.alert.latches ||| if b then c.set else 0 } } := by
  cases b <;> simp [State.setLatchIf, State.setLatch]

@[simp] theorem State.setLatchIf_porst (c : Cause) (b : Bool) : (s.setLatchIf c b).porst = s.porst := by
  rw [State.setLatchIf_eq]
@[simp] theorem State.setLatchIf_now (c : Cause) (b : Bool) : (s.setLatchIf c b).now = s.now := by
  rw [State.setLatchIf_eq]
@[simp] theorem State.setLatchIf_turns (c : Cause) (b : Bool) : (s.setLatchIf c b).turns = s.turns := by
  rw [State.setLatchIf_eq]
@[simp] theorem State.setLatchIf_fwd (c : Cause) (b : Bool) : (s.setLatchIf c b).fwd = s.fwd := by
  rw [State.setLatchIf_eq]
@[simp] theorem State.setLatchIf_map (c : Cause) (b : Bool) : (s.setLatchIf c b).map = s.map := by
  rw [State.setLatchIf_eq]
@[simp] theorem State.setLatchIf_blind (c : Cause) (b : Bool) : (s.setLatchIf c b).blind = s.blind := by
  rw [State.setLatchIf_eq]
@[simp] theorem State.setLatchIf_chan (c : Cause) (b : Bool) : (s.setLatchIf c b).chan = s.chan := by
  rw [State.setLatchIf_eq]
@[simp] theorem State.setLatchIf_banks (c : Cause) (b : Bool) : (s.setLatchIf c b).banks = s.banks := by
  rw [State.setLatchIf_eq]
@[simp] theorem State.setLatchIf_modes (c : Cause) (b : Bool) : (s.setLatchIf c b).modes = s.modes := by
  rw [State.setLatchIf_eq]
@[simp] theorem State.setLatchIf_tracker (c : Cause) (b : Bool) : (s.setLatchIf c b).tracker = s.tracker := by
  rw [State.setLatchIf_eq]
@[simp] theorem State.setLatchIf_waiting (c : Cause) (b : Bool) : (s.setLatchIf c b).waiting = s.waiting := by
  rw [State.setLatchIf_eq]
@[simp] theorem State.setLatchIf_nextNumber (c : Cause) (b : Bool) : (s.setLatchIf c b).nextNumber = s.nextNumber := by
  rw [State.setLatchIf_eq]
@[simp] theorem State.setLatchIf_checker (c : Cause) (b : Bool) : (s.setLatchIf c b).checker = s.checker := by
  rw [State.setLatchIf_eq]
@[simp] theorem State.setLatchIf_windows (c : Cause) (b : Bool) : (s.setLatchIf c b).windows = s.windows := by
  rw [State.setLatchIf_eq]
@[simp] theorem State.setLatchIf_seq (c : Cause) (b : Bool) : (s.setLatchIf c b).seq = s.seq := by
  rw [State.setLatchIf_eq]
@[simp] theorem State.setLatchIf_capture (c : Cause) (b : Bool) : (s.setLatchIf c b).capture = s.capture := by
  rw [State.setLatchIf_eq]
@[simp] theorem State.setLatchIf_cues (c : Cause) (b : Bool) : (s.setLatchIf c b).cues = s.cues := by
  rw [State.setLatchIf_eq]
@[simp] theorem State.setLatchIf_interval (c : Cause) (b : Bool) : (s.setLatchIf c b).interval = s.interval := by
  rw [State.setLatchIf_eq]
@[simp] theorem State.setLatchIf_port (c : Cause) (b : Bool) : (s.setLatchIf c b).port = s.port := by
  rw [State.setLatchIf_eq]
@[simp] theorem State.setLatchIf_free (c : Cause) (b : Bool) : (s.setLatchIf c b).free = s.free := by
  rw [State.setLatchIf_eq]
@[simp] theorem State.setLatchIf_wires (c : Cause) (b : Bool) : (s.setLatchIf c b).wires = s.wires := by
  rw [State.setLatchIf_eq]
@[simp] theorem State.setLatchIf_pending (c : Cause) (b : Bool) : (s.setLatchIf c b).pending = s.pending := by
  rw [State.setLatchIf_eq]

/-! ### Entries read back -/

@[simp] theorem State.bank_setBank_same (b : BankNo) (e : Bank) : (s.setBank b e).bank b = e := by
  simp [State.bank, State.setBank]

theorem State.bank_setBank_other {b b' : BankNo} (e : Bank) (h : b' ≠ b) :
    (s.setBank b e).bank b' = s.bank b' := by
  have : b.toNat ≠ b'.toNat := fun k => h (BitVec.eq_of_toNat_eq k.symm)
  simp [State.bank, State.setBank, Vector.getElem_set_ne, this]

theorem State.bank_setBank (b b' : BankNo) (e : Bank) :
    (s.setBank b e).bank b' = if b' = b then e else s.bank b' := by
  split
  · subst b'; simp
  · next h => exact s.bank_setBank_other e h

@[simp] theorem State.bank_mapBanks (f : Bank → Bank) (b : BankNo) :
    (s.mapBanks f).bank b = f (s.bank b) := by
  simp [State.bank, State.mapBanks]

@[simp] theorem State.cue_setCue_same (p : PinNo) (c : Cue) : (s.setCue p c).cue p = c := by
  simp [State.cue, State.setCue]

theorem State.cue_setCue_other {p p' : PinNo} (c : Cue) (h : p' ≠ p) :
    (s.setCue p c).cue p' = s.cue p' := by
  have : p.toNat ≠ p'.toNat := fun k => h (BitVec.eq_of_toNat_eq k.symm)
  simp [State.cue, State.setCue, Vector.getElem_set_ne, this]

/-! ### The wrappers of the meanings -/

@[simp] theorem State.whileUp_up (f : State → State) (h : s.porst = false) :
    s.whileUp f = .next (f s) := by
  simp [State.whileUp, h]

@[simp] theorem State.whileUp_held (f : State → State) (h : s.porst = true) : s.whileUp f = .next s := by
  simp [State.whileUp, h]

theorem State.serve_up (c : Instr) (h : s.porst = false) (ha : s.admits c = true) :
    s.serve c = .next (s.request c) := by
  simp [State.serve, h, ha]

theorem State.serve_other (c : Instr) (ha : s.admits c = false) : s.serve c = .next s := by
  simp [State.serve, State.whileUp, ha]

theorem State.request_of {c : Instr} {t : State} {a : Answer} (h : s.requestEffect c = some (t, a)) :
    s.request c = t.respond a := by
  simp [State.request, h]

@[simp] theorem State.serveWaiting_none (h : s.port.waiting = none) : s.serveWaiting = s := by
  simp [State.serveWaiting, h]

theorem State.serveWaiting_some {c : Instr} (h : s.port.waiting = some c) :
    s.serveWaiting = s.request c := by
  simp [State.serveWaiting, h]

theorem State.arrive_up (c : Cmd) (h : s.porst = false) (h' : s.turns.command = false) :
    s.arrive c = (s.sampleCommand (.command c)).takeCommand c := by
  simp [State.arrive, h, h']

end Sys2Proof.Machine
end

