-- ==== Sys2Proof/Laws/Offers.lean ====
section
/-! SUPPORT. What handing over an event's occurrences and records does, said once: the occurrence queue and event
staging take what has a place, the rest sets SEQ_OVERRUN or is counted as lost (`HandedOut`). -/
namespace Sys2Proof.Machine

/-- Some stage of the table can use the occurrence (R127). -/
def State.usable (s : State) (o : Occurrence) : Bool := s.seq.stages.toList.any fun st => st.uses o

/-! ### Occurrences (R127, R129) -/

/-- One occurrence that some stage uses, offered in ARMED. -/
theorem State.offerOccurrence_used (s : State) (o : Occurrence) (ha : s.seq.state = .armed)
    (hu : s.usable o = true) :
    s.offerOccurrence o =
      if s.seq.queue.length < 16 then s.setSeq { s.seq with queue := s.seq.queue ++ [o] }
      else s.setLatch .seqOverrun := by
  unfold State.offerOccurrence
  rw [if_pos ⟨ha, hu⟩]
  rfl

theorem State.offerOccurrence_dropped (s : State) (o : Occurrence)
    (h : s.seq.state ≠ .armed ∨ s.usable o = false) : s.offerOccurrence o = s := by
  unfold State.offerOccurrence
  rw [if_neg]
  rintro ⟨ha, hu⟩
  rcases h with h | h
  · exact h ha
  · exact Bool.false_ne_true (h.symm.trans hu)

theorem State.offerOccurrences_cons (s : State) (o : Occurrence) (os : List Occurrence) :
    s.offerOccurrences (o :: os) = (s.offerOccurrence o).offerOccurrences os := rfl

/-- Outside ARMED every occurrence is dropped. -/
theorem State.offerOccurrences_dropped (s : State) (os : List Occurrence) (h : s.seq.state ≠ .armed) :
    s.offerOccurrences os = s := by
  induction os with
  | nil => rfl
  | cons o os ih => rw [State.offerOccurrences_cons, s.offerOccurrence_dropped o (.inl h), ih]

/-- In ARMED the occurrences some stage uses join the queue as far as its 16 places go. -/
theorem State.offerOccurrences_seq (s : State) (os : List Occurrence) (ha : s.seq.state = .armed) :
    (s.offerOccurrences os).seq =
      { s.seq with queue := s.seq.queue ++ (os.filter s.usable).take (16 - s.seq.queue.length) } := by
  induction os generalizing s with
  | nil => simp [State.offerOccurrences]
  | cons o os ih =>
    rw [State.offerOccurrences_cons, List.filter_cons]
    by_cases hu : s.usable o = true
    · rw [s.offerOccurrence_used o ha hu, if_pos hu]
      split
      · next hl =>
        have e : 16 - s.seq.queue.length = 16 - (s.seq.queue.length + 1) + 1 := by omega
        rw [ih _ (by exact ha), e, List.take_succ_cons]
        simp only [State.setSeq, List.length_append, List.length_cons, List.length_nil, Nat.zero_add,
          List.append_assoc, List.singleton_append]
        rfl
      · next hl =>
        have e : 16 - s.seq.queue.length = 0 := by omega
        rw [ih _ (by exact ha)]
        simp only [State.setLatch, e, List.take_zero]
    · rw [s.offerOccurrence_dropped o (.inr (by simpa using hu)), if_neg hu, ih s ha]

/-- Used occurrences beyond the places set SEQ_OVERRUN; no other latch changes. -/
theorem State.offerOccurrences_latches (s : State) (os : List Occurrence) (ha : s.seq.state = .armed) :
    (s.offerOccurrences os).alert.latches =
      s.alert.latches |||
        (if 16 - s.seq.queue.length < (os.filter s.usable).length then Cause.seqOverrun.set else 0) := by
  induction os generalizing s with
  | nil => simp [State.offerOccurrences]
  | cons o os ih =>
    rw [State.offerOccurrences_cons, List.filter_cons]
    by_cases hu : s.usable o = true
    · rw [s.offerOccurrence_used o ha hu, if_pos hu]
      split
      · next hl =>
        have hf : (s.setSeq { s.seq with queue := s.seq.queue ++ [o] }).usable = s.usable := rfl
        rw [ih _ (by exact ha), hf]
        have e : ∀ n, (16 - (s.seq.queue ++ [o]).length < n ↔ 16 - s.seq.queue.length < n + 1) := by
          intro n; simp only [List.length_append, List.length_cons, List.length_nil]; omega
        simp only [State.setSeq, e, List.length_cons]
      · next hl =>
        have e : 16 - s.seq.queue.length = 0 := by omega
        have hf : (s.setLatch .seqOverrun).usable = s.usable := rfl
        rw [ih _ (by exact ha), hf]
        simp only [State.setLatch, e, List.length_cons, Nat.zero_lt_succ, if_true]
        split <;> simp [BitVec.or_assoc]
    · rw [s.offerOccurrence_dropped o (.inr (by simpa using hu)), if_neg hu, ih s ha]

theorem State.offerOccurrence_capture (s : State) (o : Occurrence) :
    (s.offerOccurrence o).capture = s.capture := by
  unfold State.offerOccurrence
  split
  · split <;> rfl
  · rfl

@[simp] theorem State.offerOccurrences_capture (s : State) (os : List Occurrence) :
    (s.offerOccurrences os).capture = s.capture := by
  induction os generalizing s with
  | nil => rfl
  | cons o os ih =>
    rw [show s.offerOccurrences (o :: os) = (s.offerOccurrence o).offerOccurrences os from rfl, ih,
      State.offerOccurrence_capture]

/-! ### Event records (R151, R154, R155) -/

/-- One event record whose class is enabled, offered while capture runs. -/
theorem State.offerEvent_allowed (s : State) (r : Record) (hr : s.capture.running = true)
    (ha : s.capture.settings.classes.allows r = true) :
    s.offerEvent r =
      if s.capture.event.records.length < 8 then
        { s with capture := { s.capture with
          event := { s.capture.event with records := s.capture.event.records ++ [r] } } }
      else
        { s with
          capture := { s.capture with
            event := { s.capture.event with lost := min (s.capture.event.lost + 1) 65535 } }
          alert := { s.alert with
            latches := s.alert.latches ||| if s.capture.event.lost = 0 then Cause.captureGap.set else 0 } } := by
  unfold State.offerEvent State.offer
  simp only [ha, if_true, hr, Capture.queue, QueueId.places]
  by_cases hl : s.capture.event.records.length < 8
  · simp [hl, State.setCapture, Capture.setQueue]
  · by_cases h0 : s.capture.event.lost = 0 <;>
      simp [hl, h0, State.setCapture, Capture.setQueue, State.setLatchIf, State.setLatch, raiseLost,
        Config.lostMax]

theorem State.offerEvent_refused (s : State) (r : Record)
    (h : s.capture.running = false ∨ s.capture.settings.classes.allows r = false) : s.offerEvent r = s := by
  unfold State.offerEvent State.offer
  rcases h with h | h <;> simp [h]

theorem State.offerEvents_cons (s : State) (r : Record) (rs : List Record) :
    s.offerEvents (r :: rs) = (s.offerEvent r).offerEvents rs := rfl

theorem State.offerEvents_stopped (s : State) (rs : List Record) (h : s.capture.running = false) :
    s.offerEvents rs = s := by
  induction rs with
  | nil => rfl
  | cons r rs ih => rw [State.offerEvents_cons, s.offerEvent_refused r (.inl h), ih]

/-- Records of disabled classes alone change nothing. -/
theorem State.offerEvents_refused (s : State) (rs : List Record)
    (h : rs.filter s.capture.settings.classes.allows = []) : s.offerEvents rs = s := by
  induction rs with
  | nil => rfl
  | cons r rs ih =>
    rw [List.filter_eq_nil_iff] at h
    have hr : s.capture.settings.classes.allows r = false := by simpa using h r (by simp)
    rw [State.offerEvents_cons, s.offerEvent_refused r (.inr hr),
      ih (List.filter_eq_nil_iff.mpr fun x hx => h x (by simp [hx]))]

/-- While capture runs the enabled records join event staging as far as its 8 places go. -/
theorem State.offerEvents_records (s : State) (rs : List Record) (hr : s.capture.running = true) :
    (s.offerEvents rs).capture.event.records =
      s.capture.event.records ++
        (rs.filter s.capture.settings.classes.allows).take (8 - s.capture.event.records.length) := by
  induction rs generalizing s with
  | nil => simp [State.offerEvents]
  | cons r rs ih =>
    rw [State.offerEvents_cons]
    by_cases ha : s.capture.settings.classes.allows r = true
    · rw [s.offerEvent_allowed r hr ha, List.filter_cons, if_pos ha]
      split
      · next hl =>
        have e : 8 - s.capture.event.records.length = 8 - (s.capture.event.records.length + 1) + 1 := by
          omega
        rw [ih _ (by simpa [Capture.running] using hr)]
        simp [e]
      · next hl =>
        have e : 8 - s.capture.event.records.length = 0 := by omega
        rw [ih _ (by simpa [Capture.running] using hr)]
        simp [e]
    · rw [s.offerEvent_refused r (.inr (by simpa using ha)), ih s hr, List.filter_cons, if_neg ha]

/-- Enabled records beyond the places are counted, and the first loss sets CAPTURE_GAP. -/
theorem State.offerEvents_lost (s : State) (rs : List Record) (hr : s.capture.running = true)
    (hl : s.capture.event.records.length ≤ 8) :
    let n := s.capture.event.records.length + (rs.filter s.capture.settings.classes.allows).length - 8
    (n ≠ 0 → (s.offerEvents rs).capture.event.lost = min (s.capture.event.lost + n) 65535) ∧
    (s.offerEvents rs).alert.latches =
      s.alert.latches ||| (if n ≠ 0 ∧ s.capture.event.lost = 0 then Cause.captureGap.set else 0) := by
  induction rs generalizing s with
  | nil => simp [State.offerEvents, show s.capture.event.records.length - 8 = 0 by omega]
  | cons r rs ih =>
    rw [State.offerEvents_cons]
    by_cases ha : s.capture.settings.classes.allows r = true
    · rw [s.offerEvent_allowed r hr ha, List.filter_cons, if_pos ha]
      split
      · next h8 =>
        have k := ih
          { s with capture := { s.capture with
            event := { s.capture.event with records := s.capture.event.records ++ [r] } } }
          (by simpa [Capture.running] using hr) (by simp; omega)
        simpa [Nat.add_assoc, Nat.add_comm, Nat.add_left_comm] using k
      · next h8 =>
        have h8' : s.capture.event.records.length = 8 := by omega
        have k := ih
          { s with
            capture := { s.capture with
              event := { s.capture.event with lost := min (s.capture.event.lost + 1) 65535 } }
            alert := { s.alert with
              latches := s.alert.latches ||| if s.capture.event.lost = 0 then Cause.captureGap.set else 0 } }
          (by simpa [Capture.running] using hr) (by simp; omega)
        simp only [h8', Nat.add_sub_cancel_left] at k ⊢
        refine ⟨fun _ => ?_, ?_⟩
        · by_cases hz : (rs.filter s.capture.settings.classes.allows).length = 0
          · rw [State.offerEvents_refused _ _ (by simpa using hz)]
            simp [hz]
          · rw [k.1 hz]; simp only [List.length_cons]; omega
        · rw [k.2]
          by_cases h0 : s.capture.event.lost = 0
          · simp [h0]
          · simp [h0]
    · rw [s.offerEvent_refused r (.inr (by simpa using ha)), List.filter_cons, if_neg ha]
      exact ih s hr hl

/-- While places are left nothing is counted as lost. -/
theorem State.offerEvents_lost_none (s : State) (rs : List Record) (hr : s.capture.running = true)
    (hl : s.capture.event.records.length + (rs.filter s.capture.settings.classes.allows).length ≤ 8) :
    (s.offerEvents rs).capture.event.lost = s.capture.event.lost := by
  induction rs generalizing s with
  | nil => rfl
  | cons r rs ih =>
    rw [State.offerEvents_cons]
    by_cases ha : s.capture.settings.classes.allows r = true
    · rw [List.filter_cons, if_pos ha, List.length_cons] at hl
      rw [s.offerEvent_allowed r hr ha, if_pos (by omega)]
      rw [ih _ (by simpa [Capture.running] using hr) (by simp; omega)]
    · rw [List.filter_cons, if_neg ha] at hl
      rw [s.offerEvent_refused r (.inr (by simpa using ha)), ih s hr hl]

theorem State.offerEvent_seq (s : State) (r : Record) : (s.offerEvent r).seq = s.seq := by
  unfold State.offerEvent State.offer
  split
  · simp only
    split
    · rfl
    · split
      · rfl
      · cases h : ((s.capture.queue .event).lost == 0) <;> rfl
  · rfl

@[simp] theorem State.offerEvents_seq (s : State) (rs : List Record) : (s.offerEvents rs).seq = s.seq := by
  induction rs generalizing s with
  | nil => rfl
  | cons r rs ih => rw [State.offerEvents_cons, ih, State.offerEvent_seq]

/-- Of the latches an offer of event records can set CAPTURE_GAP alone. -/
theorem State.offerEvents_latch (s : State) (rs : List Record) (i : Nat) (hi : i ≠ 8) :
    (s.offerEvents rs).alert.latches.getLsbD i = s.alert.latches.getLsbD i := by
  induction rs generalizing s with
  | nil => rfl
  | cons r rs ih =>
    rw [State.offerEvents_cons, ih]
    unfold State.offerEvent State.offer
    split
    · simp only
      split
      · rfl
      · split
        · rfl
        · rw [State.setLatchIf_eq]
          simp only [State.setCapture_alert]
          split <;> simp [Cause.set, Cause.bit, Ne.symm hi]
    · rfl

/-! ### Merges -/

/-- The list holds the elements of the lists given, each list in its order. -/
def Merges {α : Type} (l : List α) (lists : List (List α)) : Prop :=
  l.Perm lists.flatten ∧ ∀ x ∈ lists, x.Sublist l

theorem Merges.single {α : Type} (l : List α) : Merges l [l] := by simp [Merges]

theorem Merges.nil {α : Type} : Merges ([] : List α) [] := by simp [Merges]

/-- An empty list more changes nothing. -/
theorem Merges.cons_nil {α : Type} {l : List α} {lists : List (List α)} (h : Merges l lists) :
    Merges l ([] :: lists) := by
  refine ⟨by simpa using h.1, fun x hx => ?_⟩
  rcases List.mem_cons.mp hx with rfl | hx
  · exact List.nil_sublist _
  · exact h.2 x hx

/-- The order of the lists does not matter. -/
theorem Merges.perm {α : Type} {l : List α} {L L' : List (List α)} (h : Merges l L) (p : L.Perm L') :
    Merges l L' :=
  ⟨h.1.trans p.flatten, fun x hx => h.2 x (p.mem_iff.mpr hx)⟩

theorem Merges.filter {α : Type} {l : List α} {lists : List (List α)} (h : Merges l lists) (f : α → Bool) :
    (l.filter f).Perm (lists.flatten.filter f) ∧ ∀ x ∈ lists, (x.filter f).Sublist (l.filter f) :=
  ⟨h.1.filter f, fun x hx => (h.2 x hx).filter f⟩

/-- What two blocks offer in one event, merged, keeps the order within each of their lists (log entry 3). -/
theorem Merges.merged {α : Type} {a b : List α} {L M : List (List α)} (h : Merges a L) (k : Merges b M)
    (n : Nat) : Merges (merged n a b) (L ++ M) := by
  refine ⟨?_, fun x hx => ?_⟩
  · rw [List.flatten_append]
    exact (merged_perm _ _ _).trans (h.1.append k.1)
  · rcases List.mem_append.mp hx with hx | hx
    · exact (h.2 x hx).trans (mergeFree_sublist _ _ _ _ _).1
    · exact (k.2 x hx).trans (mergeFree_sublist _ _ _ _ _).2

/-! ### Both at once -/

/-- What an event hands out is handed out in the sense of the statements, said of the lists that it merges. -/
theorem State.handOut_handedOut (s : State) (o : Offers) {os : List (List Occurrence)}
    {rs : List (List Record)} (ho : Merges o.occurrences os) (hr : Merges o.records rs) :
    s.HandedOut (s.handOut o) os rs := by
  have hseq : (s.handOut o).seq = (s.offerOccurrences o.occurrences).seq := by simp [State.handOut]
  have hcap : (s.offerOccurrences o.occurrences).capture = s.capture := by simp
  refine ⟨⟨fun h => ?_, fun h hl => ?_⟩, fun h => ?_, fun h hl => ?_⟩
  · rw [hseq, State.offerOccurrences_dropped _ _ h]
  · refine ⟨o.occurrences.filter s.usable, (ho.filter _).1, (ho.filter _).2, ?_, ?_⟩
    · rw [hseq, State.offerOccurrences_seq _ _ h, List.take_append, List.take_of_length_le hl]
    · rw [State.handOut, State.offerEvents_latch _ _ _ (by decide), State.offerOccurrences_latches _ _ h,
        BitVec.getLsbD_or]
      congr 1
      by_cases hx : 16 < s.seq.queue.length + (o.occurrences.filter s.usable).length
      · rw [if_pos (by omega), decide_eq_true hx]
        rfl
      · rw [if_neg (by omega), decide_eq_false hx]
        rfl
  · unfold State.handOut
    rw [State.offerEvents_stopped _ _ (by simpa using h), hcap]
  · refine ⟨o.records.filter s.capture.settings.classes.allows, (hr.filter _).1, (hr.filter _).2, ?_, ?_, ?_⟩
    · unfold State.handOut
      rw [State.offerEvents_records _ _ (by simpa using h), hcap, List.take_append,
        List.take_of_length_le hl]
    · have k := (State.offerEvents_lost (s.offerOccurrences o.occurrences) o.records (by simpa using h)
        (by simpa using hl)).1
      simp only [hcap] at k
      split
      · next hx =>
        unfold State.handOut
        rw [State.offerEvents_lost_none _ _ (by simpa using h) (by simpa using by omega), hcap]
      · next hx => exact k hx
    · intro hx h0
      unfold State.handOut
      rw [(State.offerEvents_lost (s.offerOccurrences o.occurrences) o.records (by simpa using h)
        (by simpa using hl)).2, hcap, if_pos ⟨hx, h0⟩]
      simp [Cause.set, Cause.bit]

/-- The order in which the lists are given does not matter to `HandedOut`. -/
theorem State.HandedOut.perm {s t : State} {os os' : List (List Occurrence)} {rs rs' : List (List Record)}
    (h : s.HandedOut t os rs) (ho : os.Perm os') (hr : rs.Perm rs') : s.HandedOut t os' rs' := by
  obtain ⟨⟨h1, h2⟩, h3, h4⟩ := h
  refine ⟨⟨h1, fun a b => ?_⟩, h3, fun a b => ?_⟩
  · obtain ⟨l, p, sub, e⟩ := h2 a b
    exact ⟨l, p.trans (ho.flatten.filter _), fun x hx => sub x (ho.mem_iff.mpr hx), e⟩
  · obtain ⟨l, p, sub, e⟩ := h4 a b
    exact ⟨l, p.trans (hr.flatten.filter _), fun x hx => sub x (hr.mem_iff.mpr hx), e⟩

/-- `HandedOut` reads of the state before only the sequencer, the settings, the capture state, event staging and
SEQ_OVERRUN, and of the state after only the occurrence queue, event staging and the latches. -/
theorem State.HandedOut.congr {s s' t t' : State} {os : List (List Occurrence)} {rs : List (List Record)}
    (h : s'.HandedOut t' os rs) (hseq : s'.seq = s.seq) (hev : s'.capture.event = s.capture.event)
    (hst : s'.capture.state = s.capture.state) (hset : s'.capture.settings = s.capture.settings)
    (hl : s'.alert.latches.getLsbD 7 = s.alert.latches.getLsbD 7)
    (tq : t.seq.queue = t'.seq.queue) (te : t.capture.event = t'.capture.event)
    (tl : t.alert.latches = t'.alert.latches) : s.HandedOut t os rs := by
  have hrun : s'.capture.running = s.capture.running := by simp [Capture.running, hst]
  obtain ⟨⟨h1, h2⟩, h3, h4⟩ := h
  rw [hseq] at h1 h2
  rw [hl] at h2
  rw [hrun] at h3 h4
  rw [hev] at h3 h4
  rw [hset] at h4
  unfold State.HandedOut State.OccurrencesQueued State.RecordsQueued
  rw [tq, te, tl]
  exact ⟨⟨h1, h2⟩, h3, h4⟩

end Sys2Proof.Machine
end

