-- ==== Sys2Proof/Laws/Port.lean ====
section
/-! SUPPORT. The service port on its pins, said once: eight cycles of SCLK are a byte, every event of the pins and
every request that takes effect keeps the frame in order (`Port.Inv`), and bytes read back as the value they were
made of. -/
namespace Sys2Proof.Machine

/-! ### Bytes and bits (R182, R193) -/

theorem byteOfBits_bits (b : Byte) : byteOfBits ((List.range 8).map fun k => b.getLsbD (7 - k)) = b := by
  revert b
  decide +kernel

/-- The bytes of a value, most significant first, are read as that value. -/
theorem ofBytes_toBytes (n : Nat) (v : BitVec (8 * n)) : ofBytes n (toBytes n v) = v := by
  have step : ∀ k, k ≤ n →
      ((List.range k).map fun i => v.extractLsb' (8 * (n - 1 - i)) 8).foldl
        (fun (acc : BitVec (8 * n)) (b : Byte) => (acc <<< 8) ||| b.setWidth (8 * n)) (0 : BitVec (8 * n)) =
      v >>> (8 * (n - k)) := by
    intro k hk
    induction k with
    | zero =>
      apply BitVec.eq_of_getLsbD_eq
      intro i hi
      simp [BitVec.getLsbD_ushiftRight]
    | succ k ih =>
      rw [List.range_succ, List.map_append, List.foldl_append, ih (by omega)]
      apply BitVec.eq_of_getLsbD_eq
      intro i hi
      simp only [List.map_cons, List.map_nil, List.foldl_cons, List.foldl_nil, BitVec.getLsbD_or,
        BitVec.getLsbD_shiftLeft, BitVec.getLsbD_ushiftRight, BitVec.getLsbD_setWidth,
        BitVec.getLsbD_extractLsb', hi, decide_true, Bool.true_and]
      by_cases h8 : i < 8
      · simp [h8, show 8 * (n - 1 - k) + i = 8 * (n - (k + 1)) + i by omega]
      · simp [h8, show 8 * (n - k) + (i - 8) = 8 * (n - (k + 1)) + i by omega]
  have h := step n (Nat.le_refl n)
  simp only [Nat.sub_self, Nat.mul_zero, BitVec.ushiftRight_zero] at h
  rw [ofBytes, List.take_of_length_le (by simp [toBytes])]
  exact h

/-! ### The pins (R182 to R184) -/

theorem Port.run_append (p : Port) (xs ys : List Wire) : p.run (xs ++ ys) = (p.run xs).run ys := by
  simp [Port.run]

theorem Port.run_cons (p : Port) (x : Wire) (xs : List Wire) : p.run (x :: xs) = (p.wire x).run xs := rfl

theorem Port.clock_bit (p : Port) (x : Bool) (ha : p.frame.active = true) (hb : p.bits.length < 7) :
    p.clock x = { p with bits := p.bits ++ [x] } := by
  simp [Port.clock, ha, show p.bits.length + 1 < 8 by omega]

theorem Port.clock_byte (p : Port) (x : Bool) (ha : p.frame.active = true) (hb : p.bits.length = 7) :
    p.clock x = Port.takeByte { p with bits := [] } (byteOfBits (p.bits ++ [x])) := by
  simp [Port.clock, ha, hb]

/-- Eight cycles of SCLK in a frame at a byte boundary shift one byte in. -/
theorem Port.run_wireOfByte (p : Port) (b : Byte) (ha : p.frame.active = true) (hb : p.bits = []) :
    p.run (wireOfByte b) = p.takeByte b := by
  have go : ∀ (xs : List Bool) (q : Port), q.frame.active = true → q.bits.length + xs.length = 8 → xs ≠ [] →
      q.run (xs.map .clock) = Port.takeByte { q with bits := [] } (byteOfBits (q.bits ++ xs)) := by
    intro xs
    induction xs with
    | nil => intro q _ _ h; exact absurd rfl h
    | cons x xs ih =>
      intro q hq hl _
      rw [List.map_cons, Port.run_cons, Port.wire]
      simp only [List.length_cons] at hl
      cases xs with
      | nil => exact q.clock_byte x hq (by simpa using hl)
      | cons y ys =>
        simp only [List.length_cons] at hl
        rw [q.clock_bit x hq (by omega), ih { q with bits := q.bits ++ [x] } hq (by simp; omega) (by simp)]
        simp
  have e : wireOfByte b = ((List.range 8).map fun k => b.getLsbD (7 - k)).map .clock := by
    simp [wireOfByte]
  rw [e, go _ p ha (by simp [hb]) (by simp), hb, List.nil_append, byteOfBits_bits]
  rw [← hb]

/-! ### The port's frame stays in order -/

theorem Port.Inv.select {p : Port} (h : p.Inv) : p.select.Inv := by
  obtain ⟨frame, bits, waiting, reply⟩ := p
  cases frame <;> simp_all [Port.Inv, Port.select, FramePhase.active, requestComplete]

theorem Port.Inv.deselect {p : Port} : p.deselect.Inv := by
  simp [Port.Inv, Port.deselect, FramePhase.active]

theorem requestOf_isSome {l : List Byte} (h : requestComplete l = true) : (requestOf l).isSome = true := by
  cases l with
  | nil => simp [requestComplete] at h
  | cons x xs => simp [requestOf, h]

theorem Port.Inv.takeByte {p : Port} (h : p.Inv) (hb : p.bits = []) (b : Byte) : (p.takeByte b).Inv := by
  obtain ⟨frame, bits, waiting, reply⟩ := p
  simp only at hb
  subst hb
  cases frame with
  | idle => exact h
  | ignored => exact h
  | request l =>
    obtain ⟨-, -, hr, -⟩ := h
    have hreply : reply = .filler := (hr l rfl).2
    subst hreply
    by_cases hc : requestComplete (l ++ [b]) = true
    · cases waiting <;>
        simp [Port.takeByte, hc, Port.complete, Port.Inv, FramePhase.active, requestOf_isSome]
    · simp only [Bool.not_eq_true] at hc
      simp [Port.takeByte, hc, Port.Inv, FramePhase.active]
  | turnaround =>
    cases reply <;> simp [Port.takeByte, Port.Inv, FramePhase.active]
  | response n =>
    obtain ⟨-, -, -, hd⟩ := h
    cases reply <;> simp_all [Port.takeByte, Port.Inv, FramePhase.active]

theorem Port.Inv.clock {p : Port} (h : p.Inv) (sdi : Bool) : (p.clock sdi).Inv := by
  unfold Port.clock
  split
  · next ha =>
    simp only
    split
    · next hl =>
      obtain ⟨-, -, hr, hd⟩ := h
      exact ⟨hl, fun hn => absurd ha (by simp_all), hr, hd⟩
    · obtain ⟨-, -, hr, hd⟩ := h
      exact Port.Inv.takeByte (p := { p with bits := [] })
        ⟨by simp, fun hn => absurd ha (by simp_all), hr, hd⟩ rfl _
  · exact h

theorem Port.Inv.wire {p : Port} (h : p.Inv) (w : Wire) : (p.wire w).Inv := by
  cases w with
  | select => exact h.select
  | deselect => exact Port.Inv.deselect
  | clock sdi => exact h.clock sdi

theorem Port.Inv.run {p : Port} (h : p.Inv) (ws : List Wire) : (p.run ws).Inv := by
  induction ws generalizing p with
  | nil => exact h
  | cons w ws ih => exact ih (h.wire w)

theorem Port.Inv.settle {p : Port} (h : p.Inv) (a : Answer) : (p.settle a).Inv := by
  obtain ⟨frame, bits, waiting, reply⟩ := p
  cases waiting with
  | none => simp [Port.settle, Port.Inv, FramePhase.active]
  | some c =>
    obtain ⟨hl, hn, hr, hd⟩ := h
    simp only [Port.settle, Port.Inv]
    refine ⟨hl, fun hf => ⟨(hn hf).1, ?_⟩, fun l hf => ⟨(hr l hf).1, ?_⟩, ?_⟩
    · rw [show reply = .filler from (hn hf).2]; rfl
    · rw [show reply = .filler from (hr l hf).2]; rfl
    · split
      · intro k; cases k
      · next k => intro k'; exact absurd k' k

theorem Port.Inv.wholeFrame {p : Port} (bytes : List Byte) : (p.wholeFrame bytes).Inv := Port.Inv.deselect

end Sys2Proof.Machine
end

