-- ==== Sys2Proof/Laws/Steps.lean ====
section
/-! SUPPORT. What each shared operation can change, said once. `CaptureStep`: capture and alert latches
only, settings kept. `EventStep`: what the tracker's, the windows', the guard's, the sequencer's and
capture's events reach; the shadow, the clock, forwarding and the programming stay. -/
namespace Sys2Proof.Machine

/-- Only trace capture (not its settings) and the alert latches differ. -/
def State.CaptureStep (s t : State) : Prop :=
  t = { s with capture := t.capture, alert := t.alert } ∧
  t.capture.settings = s.capture.settings ∧
  t.alert.globalOn = s.alert.globalOn ∧ t.alert.enables = s.alert.enables

/-- Only what events reach differs, and what is programmed stays. -/
def State.EventStep (s t : State) : Prop :=
  t =
    { s with
      turns := t.turns, tracker := t.tracker, waiting := t.waiting, windows := t.windows
      seq := t.seq, capture := t.capture, alert := t.alert, cues := t.cues, free := t.free } ∧
  s.SameProgram t

theorem State.CaptureStep.refl (s : State) : s.CaptureStep s := ⟨rfl, rfl, rfl, rfl⟩

theorem State.CaptureStep.trans {s t u : State} (h : s.CaptureStep t) (k : t.CaptureStep u) :
    s.CaptureStep u := by
  obtain ⟨h0, h1, h2, h3⟩ := h
  obtain ⟨k0, k1, k2, k3⟩ := k
  refine ⟨?_, k1.trans h1, k2.trans h2, k3.trans h3⟩
  rw [k0, h0]

theorem State.SameProgram.refl (s : State) : s.SameProgram s := by
  simp [State.SameProgram]

theorem State.SameProgram.trans {s t u : State} (h : s.SameProgram t) (k : t.SameProgram u) :
    s.SameProgram u := by
  obtain ⟨h1, h2, h3, h4, h5, h6, h7, h8, h9, h10⟩ := h
  obtain ⟨k1, k2, k3, k4, k5, k6, k7, k8, k9, k10⟩ := k
  exact ⟨k1.trans h1, k2.trans h2, k3.trans h3,
    fun i => ⟨(k4 i).1.trans (h4 i).1, (k4 i).2.trans (h4 i).2⟩, k5.trans h5, k6.trans h6,
    k7.trans h7, k8.trans h8,
    fun p => ⟨(k9 p).1.trans (h9 p).1, (k9 p).2.1.trans (h9 p).2.1, (k9 p).2.2.1.trans (h9 p).2.2.1,
      (k9 p).2.2.2.trans (h9 p).2.2.2⟩, k10.trans h10⟩

theorem State.EventStep.refl (s : State) : s.EventStep s := ⟨rfl, .refl s⟩

theorem State.EventStep.trans {s t u : State} (h : s.EventStep t) (k : t.EventStep u) :
    s.EventStep u := by
  refine ⟨?_, h.2.trans k.2⟩
  rw [k.1, h.1]

theorem State.CaptureStep.event {s t : State} (h : s.CaptureStep t) : s.EventStep t := by
  obtain ⟨h0, h1, h2, h3⟩ := h
  refine ⟨by rw [h0], ?_⟩
  rw [h0] at h1 h2 h3 ⊢
  exact ⟨rfl, rfl, rfl, fun _ => ⟨rfl, rfl⟩, rfl, h1, h2, h3, fun _ => ⟨rfl, rfl, rfl, rfl⟩, rfl⟩

/-! ### Latches and offers to capture -/

theorem State.setLatch_step (s : State) (c : Cause) : s.CaptureStep (s.setLatch c) :=
  ⟨rfl, rfl, rfl, rfl⟩

theorem State.setLatchIf_step (s : State) (c : Cause) (b : Bool) : s.CaptureStep (s.setLatchIf c b) := by
  cases b
  · exact .refl s
  · exact s.setLatch_step c

@[simp] theorem Capture.setQueue_settings (c : Capture) (q : QueueId) (x : Staging) :
    (c.setQueue q x).settings = c.settings := by
  cases q <;> rfl

theorem State.setCapture_step (s : State) (c : Capture) (h : c.settings = s.capture.settings) :
    s.CaptureStep (s.setCapture c) := ⟨rfl, h, rfl, rfl⟩

theorem State.offer_step (s : State) (q : QueueId) (r : Record) : s.CaptureStep (s.offer q r) := by
  unfold State.offer
  simp only
  split
  · exact .refl s
  · split
    · exact s.setCapture_step _ (by simp)
    · exact (s.setCapture_step _ (by simp)).trans (State.setLatchIf_step _ _ _)

theorem State.offerEvent_step (s : State) (r : Record) : s.CaptureStep (s.offerEvent r) := by
  unfold State.offerEvent
  split
  · exact s.offer_step _ _
  · exact .refl s

theorem State.offerEvents_step (s : State) (rs : List Record) : s.CaptureStep (s.offerEvents rs) := by
  unfold State.offerEvents
  induction rs generalizing s with
  | nil => exact .refl s
  | cons r rs ih => exact (s.offerEvent_step r).trans (ih _)

theorem State.enterGap_step (s : State) (q : QueueId) : s.CaptureStep (s.enterGap q) := by
  unfold State.enterGap
  simp only
  split
  · exact s.setCapture_step _ (by simp)
  · exact .refl s

theorem State.enterStopped_step (s : State) : s.CaptureStep s.enterStopped :=
  s.setCapture_step _ rfl

theorem State.serveNote_step (s : State) : s.CaptureStep s.serveNote := by
  unfold State.serveNote
  split
  · exact .refl s
  · exact (s.offerEvent_step _).trans (State.setCapture_step _ _ rfl)

theorem State.startCapture_step (s : State) : s.CaptureStep s.startCapture := by
  unfold State.startCapture
  split
  · exact .refl s
  · have h1 := s.setCapture_step { s.capture with state := .run } rfl
    have h2 := h1.trans (State.serveNote_step _)
    exact ((h2.trans (State.enterGap_step _ .event)).trans (State.enterGap_step _ .access)).trans
      (State.enterGap_step _ .marker)

theorem State.stopCapture_step (s : State) : s.CaptureStep s.stopCapture := by
  unfold State.stopCapture
  split
  · exact s.enterStopped_step
  · exact .refl s

theorem State.triggerCapture_step (s : State) : s.CaptureStep s.triggerCapture := by
  unfold State.triggerCapture
  split
  · split
    · exact s.enterStopped_step
    · exact s.setCapture_step _ rfl
  · exact .refl s

/-! ### The writer and the arbiter -/

@[simp] theorem Capture.countUnit_settings (c : Capture) : c.countUnit.settings = c.settings := by
  unfold Capture.countUnit
  simp only
  split
  · split <;> rfl
  · rfl

@[simp] theorem Capture.advanceWriter_settings (c : Capture) :
    c.advanceWriter.settings = c.settings := by
  unfold Capture.advanceWriter
  split
  · rfl
  · split <;> rfl

/-- A step that also uses up turns of the slot. -/
theorem State.EventStep.of_capture (s : State) (c : Capture) (u : Turns)
    (h : c.settings = s.capture.settings) : s.EventStep { s with capture := c, turns := u } :=
  ⟨rfl, rfl, rfl, rfl, fun _ => ⟨rfl, rfl⟩, rfl, h, rfl, rfl, fun _ => ⟨rfl, rfl, rfl, rfl⟩, rfl⟩

theorem State.writeUnit_step (s : State) : s.EventStep s.writeUnit := by
  unfold State.writeUnit
  split
  · exact .refl s
  · exact .of_capture s _ _ (by simp)

@[simp] theorem Capture.rotate_settings (c : Capture) (q : QueueId) :
    (c.rotate q).settings = c.settings := by
  unfold Capture.rotate
  split <;> rfl

theorem State.stopFull_step (s : State) (q : QueueId) (r : Record) : s.CaptureStep (s.stopFull q r) :=
  (s.setCapture_step _ (by simp [Capture.enterStopped])).trans (State.setLatch_step _ _)

theorem State.beginRecord_step (s : State) (q : QueueId) (r : Record) :
    s.EventStep (s.beginRecord q r) := by
  unfold State.beginRecord
  simp only
  generalize hc : ({ s.capture with store := _, wrapped := _, writer := _ } : Capture) = c
  have h := s.setCapture_step c (by rw [← hc])
  exact (h.trans (State.enterGap_step _ q)).event.trans (State.writeUnit_step _)

theorem State.pick_step (s : State) : s.EventStep s.pick := by
  unfold State.pick
  split
  · split
    · exact .refl s
    · split
      · exact .refl s
      · simp only
        split
        · split
          · exact ((s.setCapture_step _ (by simp)).trans (State.stopFull_step _ _ _)).event
          · exact (s.setCapture_step _ (by simp)).event.trans (State.beginRecord_step _ _ _)
        · exact (s.setCapture_step _ (by simp)).event.trans (State.beginRecord_step _ _ _)
  · exact .refl s

theorem State.pickTurn_step (s : State) : s.EventStep s.pickTurn := by
  unfold State.pickTurn
  split
  · exact .refl s
  · exact s.pick_step.trans (.of_capture _ _ _ rfl)

theorem State.unitTurn_step (s : State) : s.EventStep s.unitTurn := by
  unfold State.unitTurn
  split
  · exact .refl s
  · exact s.writeUnit_step

/-! ### Cue pins, the occurrence queue and the stages -/

theorem State.setCue_step (s : State) (p : PinNo) (c : Cue) (hf : c.function = (s.cue p).function)
    (ho : c.out = (s.cue p).out) (hl : c.latch = (s.cue p).latch) (hw : c.width = (s.cue p).width) :
    s.EventStep (s.setCue p c) := by
  refine ⟨rfl, rfl, rfl, rfl, fun _ => ⟨rfl, rfl⟩, rfl, rfl, rfl, rfl, fun k => ?_, rfl⟩
  by_cases h : p.toNat = k.val
  · simp only [State.cue] at hf ho hl hw
    have : k = ⟨p.toNat, p.isLt⟩ := Fin.ext h.symm
    subst this
    simp [State.setCue, hf, ho, hl, hw]
  · simp [State.setCue, Vector.getElem_set_ne, h]

theorem State.requestPulse_step (s : State) (f : CueFunction) (p : PinNo) :
    s.EventStep (s.requestPulse f p) := by
  unfold State.requestPulse
  simp only
  split
  · exact s.setCue_step _ _ rfl rfl rfl rfl
  · exact .refl s

theorem State.endPulse_step (s : State) (p : PinNo) : s.EventStep (s.endPulse p) := by
  unfold State.endPulse
  split
  · exact s.setCue_step _ _ rfl rfl rfl rfl
  · exact .refl s

/-- A sample of a pin's board level reaches that pin's level and the turns alone (R174). -/
theorem State.samplePin_step (s : State) (p : PinNo) (l : Bool) : s.EventStep (s.samplePin p l) := by
  unfold State.samplePin
  split
  · exact .refl s
  · have h := s.setCue_step p { s.cue p with board := l } rfl rfl rfl rfl
    exact h.trans (State.EventStep.of_capture (s.setCue p { s.cue p with board := l }) _ _ rfl)

theorem State.setSeq_step (s : State) (q : Sequencer) (h : q.stages = s.seq.stages) :
    s.EventStep (s.setSeq q) :=
  ⟨rfl, rfl, rfl, rfl, fun _ => ⟨rfl, rfl⟩, h, rfl, rfl, rfl, fun _ => ⟨rfl, rfl, rfl, rfl⟩, rfl⟩

theorem State.offerOccurrence_step (s : State) (o : Occurrence) : s.EventStep (s.offerOccurrence o) := by
  unfold State.offerOccurrence
  split
  · split
    · exact s.setSeq_step _ rfl
    · exact (s.setLatch_step _).event
  · exact .refl s

theorem State.offerOccurrences_step (s : State) (os : List Occurrence) :
    s.EventStep (s.offerOccurrences os) := by
  unfold State.offerOccurrences
  induction os generalizing s with
  | nil => exact .refl s
  | cons o os ih => exact (s.offerOccurrence_step o).trans (ih _)

theorem State.handOut_step (s : State) (o : Offers) : s.EventStep (s.handOut o) :=
  (s.offerOccurrences_step _).trans (State.offerEvents_step _ _).event

theorem State.enterStage_step (s : State) (n : StageNo) : s.EventStep (s.enterStage n) :=
  ⟨rfl, rfl, rfl, rfl, fun _ => ⟨rfl, rfl⟩, rfl, rfl, rfl, rfl, fun _ => ⟨rfl, rfl, rfl, rfl⟩, rfl⟩

theorem State.enterTriggered_step (s : State) : s.EventStep s.enterTriggered :=
  (s.setSeq_step _ rfl).trans (State.setLatch_step _ _).event

theorem State.runActions_step (s : State) (a : StageActions) (p : PinNo) :
    s.EventStep (s.runActions a p) := by
  have ite (t : State) (b : Bool) (f : State → State) (h : ∀ u : State, u.EventStep (f u)) :
      t.EventStep (if b then f t else t) := by
    cases b
    · exact .refl t
    · exact h t
  unfold State.runActions
  exact ((((ite _ _ _ fun u => u.startCapture_step.event).trans
    (ite _ _ _ fun u => u.triggerCapture_step.event)).trans
    (ite _ _ _ fun u => u.stopCapture_step.event)).trans
    (ite _ _ (fun u => u.requestPulse .seqCue p) fun u => u.requestPulse_step _ _)).trans
    (State.setLatchIf_step _ _ _).event

theorem State.transition_step (s : State) (a : StageActions) (p : PinNo) (n : StageNo) (c : StageCause) :
    s.EventStep (s.transition a p n c) := by
  unfold State.transition
  simp only
  split
  · exact ((s.runActions_step a p).trans (State.enterTriggered_step _)).trans
      (State.offerEvent_step _ _).event
  · exact ((s.runActions_step a p).trans (State.enterStage_step _ _)).trans
      (State.offerEvent_step _ _).event

theorem State.judge_step (s : State) (x : Taken) : s.EventStep (s.judge x) := by
  unfold State.judge
  simp only
  split
  · have h := s.setSeq_step { s.seq with count := s.seq.count + 1 } rfl
    split
    · exact h.trans (State.transition_step _ _ _ _ _)
    · exact h
  · exact .refl s

theorem State.take_step (s : State) : s.EventStep s.take := by
  unfold State.take
  split
  · exact (s.setSeq_step { s.seq with entry := false } rfl).trans (State.judge_step _ _)
  · split
    · exact .refl s
    · next rest _ =>
      exact (s.setSeq_step { s.seq with queue := rest } rfl).trans (State.judge_step _ _)

theorem State.takeTurn_step (s : State) : s.EventStep s.takeTurn := by
  unfold State.takeTurn
  split
  · exact s.take_step.trans (.of_capture _ _ _ rfl)
  · exact .refl s

theorem State.timeout_step (s : State) : s.EventStep s.timeout := by
  unfold State.timeout
  split
  · exact s.transition_step _ _ _ _
  · exact .refl s

/-! ### Hits, reports and the hand-over -/

theorem countHits_program (windows : Vector Window 16) (hits : WindowSet) (k : Fin 16) :
    (countHits windows hits)[k].fields = windows[k].fields ∧
    (countHits windows hits)[k].locked = windows[k].locked := by
  simp only [countHits, Fin.getElem_fin, Vector.getElem_ofFn]
  split <;> simp [Window.countHit]

theorem State.EventStep.of_windows (s : State) (w : Vector Window 16)
    (h : ∀ k : Fin 16, w[k].fields = s.windows[k].fields ∧ w[k].locked = s.windows[k].locked) :
    s.EventStep { s with windows := w } :=
  ⟨rfl, rfl, rfl, rfl, h, rfl, rfl, rfl, rfl, fun _ => ⟨rfl, rfl, rfl, rfl⟩, rfl⟩

theorem State.hitEffects_step (s : State) (hits : WindowSet) : s.EventStep (s.hitEffects hits).1 := by
  have fold (l : List (Fin 16)) (pin : Fin 16 → PinNo) (t : State) :
      t.EventStep (l.foldl (fun t k => t.requestPulse .windowCue (pin k)) t) := by
    induction l generalizing t with
    | nil => exact .refl t
    | cons k l ih => exact (t.requestPulse_step _ _).trans (ih _)
  exact (State.EventStep.of_windows s _ (countHits_program s.windows hits)).trans (fold _ _ _)

theorem State.report_step (s : State) (r : GuardRec) : s.CaptureStep (s.report r).1 :=
  ((s.setLatchIf_step _ _).trans (State.setLatchIf_step _ _ _)).trans (State.setLatchIf_step _ _ _)

theorem State.closeAccount_step (s : State) (e : Entry) : s.CaptureStep (s.closeAccount e).1 := by
  unfold State.closeAccount
  split
  · exact .refl s
  · split
    · exact s.report_step _
    · exact .refl s

theorem State.EventStep.of_waiting (s : State) (w : List Entry) : s.EventStep { s with waiting := w } :=
  ⟨rfl, rfl, rfl, rfl, fun _ => ⟨rfl, rfl⟩, rfl, rfl, rfl, rfl, fun _ => ⟨rfl, rfl, rfl, rfl⟩, rfl⟩

theorem State.EventStep.of_tracker (s : State) (l : List Entry) : s.EventStep { s with tracker := l } :=
  ⟨rfl, rfl, rfl, rfl, fun _ => ⟨rfl, rfl⟩, rfl, rfl, rfl, rfl, fun _ => ⟨rfl, rfl, rfl, rfl⟩, rfl⟩

theorem State.join_step (s : State) (a b : Offers) : s.EventStep (s.join a b).1 :=
  ⟨rfl, rfl, rfl, rfl, fun _ => ⟨rfl, rfl⟩, rfl, rfl, rfl, rfl, fun _ => ⟨rfl, rfl, rfl, rfl⟩, rfl⟩

theorem State.retireAccount_step (s : State) (e : Entry) : s.EventStep (s.retireAccount e).1 := by
  unfold State.retireAccount
  split
  · exact .of_waiting s _
  · exact (s.closeAccount_step e).event

theorem State.offerAccess_step (s : State) (hits : WindowSet) (r : Record) :
    s.CaptureStep (s.offerAccess hits r) := by
  unfold State.offerAccess
  split
  · exact s.offer_step _ _
  · exact .refl s

theorem State.handOver_step (s : State) (e : Entry) (o : RetireOutcome) :
    s.EventStep (s.handOver e o).1 :=
  (((s.hitEffects_step _).trans (State.offerAccess_step _ _ _).event).trans
    (State.retireAccount_step _ _)).trans (State.join_step _ _ _)

theorem State.abandonAll_step (s : State) : s.EventStep s.abandonAll.1 := by
  have fold (l : List Entry) (p : State × Offers) :
      p.1.EventStep
        (l.foldl
          (fun (p : State × Offers) e =>
            let (s', off) := p.1.handOver e .abandoned
            s'.join p.2 off) p).1 := by
    induction l generalizing p with
    | nil => exact .refl _
    | cons e l ih =>
      exact ((p.1.handOver_step e .abandoned).trans (State.join_step _ _ _)).trans (ih _)
  exact (State.EventStep.of_tracker s []).trans (fold _ _)

theorem State.judgeUntrackedWrite_step (s : State) (u : Untracked) :
    s.CaptureStep (s.judgeUntrackedWrite u).1 := by
  unfold State.judgeUntrackedWrite
  split
  · simp only
    split
    · exact .refl s
    · exact s.report_step _
  · split
    · exact s.report_step _
    · exact .refl s

theorem State.handUntracked_step (s : State) (u : Untracked) : s.EventStep (s.handUntracked u).1 := by
  have h := (s.hitEffects_step (s.untrackedHits u)).trans
    (State.offerAccess_step _ (s.untrackedHits u) (untrackedRecord u (s.untrackedHits u))).event
  unfold State.handUntracked
  cases u.kind
  · exact h.trans (State.join_step _ _ _)
  · exact (h.trans (State.judgeUntrackedWrite_step _ _).event).trans (State.join_step _ _ _)

/-! ### The tracker's events -/

theorem State.updateEntry_step (s : State) (n : Nat) (f : Entry → Entry) :
    s.EventStep (s.updateEntry n f) := .of_tracker s _

theorem State.takeEffect_step (s : State) (e : Entry) : s.EventStep (s.takeEffect e).1 :=
  (s.updateEntry_step _ _).trans (State.hitEffects_step _ _)

theorem State.effectStep_step (s : State) (n : Nat) : s.EventStep (s.effectStep n) := by
  unfold State.effectStep
  split
  · exact .refl s
  · split
    · exact (s.takeEffect_step _).trans (State.handOut_step _ _)
    · exact .refl s

theorem State.retire_step (s : State) (e : Entry) (o : RetireOutcome) : s.EventStep (s.retire e o) :=
  ((State.EventStep.of_tracker s _).trans (State.handOver_step _ e o)).trans (State.handOut_step _ _)

theorem State.dataStep_step (s : State) (n : Nat) : s.EventStep (s.dataStep n) := by
  unfold State.dataStep
  split
  · exact .refl s
  · split
    · split
      · exact s.updateEntry_step _ _
      · split
        · exact .refl s
        · split
          · exact (s.updateEntry_step _ _).trans (State.retire_step _ _ _)
          · split
            · exact (s.updateEntry_step _ _).trans (State.retire_step _ _ _)
            · split <;> exact (s.updateEntry_step _ _).trans (State.retire_step _ _ _)
    · exact .refl s

theorem State.doneStep_step (s : State) (n : Nat) : s.EventStep (s.doneStep n) := by
  unfold State.doneStep
  split
  · exact .refl s
  · split
    · exact s.retire_step _ _
    · exact .refl s

theorem State.resolveVoid_step (s : State) (k : AccessKind) : s.EventStep (s.resolveVoid k) := by
  unfold State.resolveVoid
  split
  · exact .refl s
  · exact s.updateEntry_step _ _

/-- Taking the D-side beats of the slot back reaches the beats received, their turn and the READ they were given
to, no more (R12). -/
theorem State.takeBack_eq (s : State) :
    s.takeBack =
      { s with
        fwd := { s.fwd with rxRead := none }
        turns := { s.turns with readTaken := none }
        tracker := s.takeBack.tracker } := by
  unfold State.takeBack
  split <;> rfl

theorem State.foldl_step (f : State → Nat → State) (h : ∀ (t : State) (n : Nat), t.EventStep (f t n)) (l : List Nat)
    (s : State) : s.EventStep (l.foldl f s) := by
  induction l generalizing s with
  | nil => exact .refl s
  | cons n l ih => exact (h s n).trans (ih _)

theorem State.allEffects_step (s : State) : s.EventStep s.allEffects :=
  State.foldl_step _ State.effectStep_step _ s

theorem State.allData_step (s : State) : s.EventStep s.allData :=
  State.foldl_step _ State.dataStep_step _ s

theorem State.allDone_step (s : State) : s.EventStep s.allDone :=
  State.foldl_step _ State.doneStep_step _ s

theorem State.settleHolder_step (s : State) : s.EventStep s.settleHolder :=
  (s.resolveVoid_step .read).trans (State.allData_step _)

theorem State.intervalTurn_step (s : State) : s.EventStep s.intervalTurn := by
  unfold State.intervalTurn
  split
  · exact .refl s
  · simp only
    split
    · have h := (State.EventStep.of_capture s s.capture { s.turns with interval := true } rfl).trans
        (State.offerOccurrence_step _ .interval)
      split
      · exact h.trans (State.offer_step _ _ _).event
      · exact h
    · exact .of_capture s _ _ rfl

/-! ### Requests (R183, R184) -/

/-- What no request reaches: PORST_N, the forwarding path, the port, and what comes from outside (R191, R192). -/
abbrev State.RequestStep (s t : State) : Prop :=
  t.porst = s.porst ∧ t.fwd = s.fwd ∧ t.port = s.port ∧ t.wires = s.wires ∧ t.pending = s.pending

theorem State.EventStep.request {s t : State} (h : s.EventStep t) : s.RequestStep t := by
  rw [h.1]
  exact ⟨rfl, rfl, rfl, rfl, rfl⟩

theorem State.RequestStep.refl (s : State) : s.RequestStep s := ⟨rfl, rfl, rfl, rfl, rfl⟩

theorem State.forgetShadow_request (s : State) : s.RequestStep s.forgetShadow := by
  have h (t : State) (r : Offers) (hf : s.RequestStep t) : s.RequestStep
      (let (u, off) := t.abandonAll
       let (v, both) := u.join off r
       v.handOut both) := by
    obtain ⟨h1, h2, h3, h4, h5⟩ := hf
    obtain ⟨k1, k2, k3, k4, k5⟩ :=
      (t.abandonAll_step.trans ((State.join_step _ t.abandonAll.2 r).trans (State.handOut_step _ _))).request
    exact ⟨k1.trans h1, k2.trans h2, k3.trans h3, k4.trans h4, k5.trans h5⟩
  exact h _ _ (.refl s)

theorem State.armSequencer_request (s : State) : s.RequestStep s.armSequencer := by
  unfold State.armSequencer
  split
  · exact .refl s
  · exact ((s.setSeq_step { s.seq with queue := [] } rfl).trans ((State.enterStage_step _ 0).trans
      (State.offerEvent_step _ _).event)).request

theorem State.channelWrite_request (s : State) (f : Option State) (h : ∀ t, f = some t → s.RequestStep t) :
    s.RequestStep (s.channelWrite f).1 := by
  unfold State.channelWrite
  split
  · exact .refl s
  · split
    · exact .refl s
    · split
      · exact h _ rfl
      · exact .refl s

theorem State.writeMap_request (s : State) (i : MapItem) (v : Byte) : s.RequestStep (s.writeMap i v).1 := by
  apply s.channelWrite_request
  intro t h
  obtain ⟨m, -, rfl⟩ := Option.map_eq_some_iff.mp h
  exact .refl s

theorem State.writeBlind_request (s : State) (v : Byte) : s.RequestStep (s.writeBlind v).1 := by
  apply s.channelWrite_request
  intro t h
  obtain ⟨m, -, rfl⟩ := Option.map_eq_some_iff.mp h
  exact .refl s

theorem State.writeRule_request (s : State) (i : Byte) (v : BitVec 24) : s.RequestStep (s.writeRule i v).1 := by
  unfold State.writeRule
  split
  · split <;> exact .refl s
  · exact .refl s

theorem State.writeWindow_request (s : State) (i : Byte) (v : BitVec 280) :
    s.RequestStep (s.writeWindow i v).1 := by
  unfold State.writeWindow
  split
  · split
    · exact .refl s
    · split <;> exact .refl s
  · exact .refl s

theorem State.writeStage_request (s : State) (i : Byte) (v : BitVec 160) :
    s.RequestStep (s.writeStage i v).1 := by
  unfold State.writeStage
  split
  · split
    · exact .refl s
    · split
      · split <;> exact .refl s
      · exact .refl s
  · exact .refl s

theorem State.settingWrite_request (s : State) (f : Option Capture) : s.RequestStep (s.settingWrite f).1 := by
  unfold State.settingWrite
  split <;> exact .refl s

theorem State.writeTrace_request (s : State) (i : Byte) (v : BitVec 16) :
    s.RequestStep (s.writeTrace i v).1 := by
  unfold State.writeTrace
  simp only
  split
  · split
    · exact .refl s
    · exact s.settingWrite_request _
  · split
    · exact .refl s
    · exact s.settingWrite_request _
  · exact s.settingWrite_request _
  · exact s.settingWrite_request _
  · exact s.settingWrite_request _
  · exact s.settingWrite_request _
  · exact s.settingWrite_request _
  · exact .refl s

theorem State.writeAlert_request (s : State) (v : BitVec 24) : s.RequestStep (s.writeAlert v).1 := by
  unfold State.writeAlert
  split <;> exact .refl s

theorem State.writeCue_request (s : State) (i : Byte) (v : BitVec 32) : s.RequestStep (s.writeCue i v).1 := by
  unfold State.writeCue
  split
  · split <;> exact .refl s
  · exact .refl s

theorem State.writeTime_request (s : State) (v : BitVec 56) : s.RequestStep (s.writeTime v).1 := by
  unfold State.writeTime
  split <;> exact .refl s

theorem State.writeItem_request (s : State) (g i : Byte) (v : List Byte) :
    s.RequestStep (s.writeItem g i v).1 := by
  unfold State.writeItem
  split
  · exact .refl s
  · split
    · split
      · exact s.writeMap_request _ _
      · exact s.writeMap_request _ _
      · exact s.writeMap_request _ _
      · exact s.writeBlind_request _
    · exact s.writeRule_request _ _
    · exact s.writeWindow_request _ _
    · exact s.writeStage_request _ _
    · exact s.writeTrace_request _ _
    · exact s.writeAlert_request _
    · exact s.writeCue_request _ _
    · exact s.writeTime_request _
    · exact .refl s

/-- The effect of a request, whichever it is, keeps what no request reaches. -/
theorem State.requestEffect_request {s t : State} {c : Instr} {a : Answer}
    (h : s.requestEffect c = some (t, a)) : s.RequestStep t := by
  have of (p : State × Answer) (hp : s.RequestStep p.1) (e : some p = some (t, a)) : s.RequestStep t := by
    rw [Option.some.inj e] at hp
    exact hp
  have no : (none : Option (State × Answer)) = some (t, a) → s.RequestStep t := nofun
  cases c <;> first
    | exact no h
    | skip
  case readItem g i =>
    refine of _ ?_ h
    unfold State.readItem
    split <;> exact .refl s
  case readStatus => exact of _ (.refl s) h
  case readTrace =>
    refine of _ ?_ h
    unfold State.readTrace
    split <;> exact .refl s
  case ack x =>
    refine of _ ?_ h
    unfold State.acknowledge
    split <;> exact .refl s
  case captureStart => exact of _ s.startCapture_step.event.request h
  case captureStop => exact of _ s.stopCapture_step.event.request h
  case flush =>
    refine of _ ?_ h
    unfold State.flushCapture
    split <;> exact .refl s
  case arm => exact of _ s.armSequencer_request h
  case disarm => exact of _ (.refl s) h
  case lockWindow n =>
    refine of _ ?_ h
    unfold State.lockWindow
    split <;> exact .refl s
  case clearCounts => exact of _ (.refl s) h
  case clearViolations => exact of _ (.refl s) h
  case timeClear => exact of _ (.refl s) h
  case shadowForget => exact of _ s.forgetShadow_request h
  case setPins v => exact of _ (.refl s) h
  case softReset => exact of _ (.refl s) h
  case unknownRequest code =>
    change (if _ then none else some (s, _)) = _ at h
    split at h
    · exact no h
    · exact of _ (.refl s) h
  case writeAddressMap i v => exact of _ (s.writeMap_request i v) h
  case writeBlindPolicy v => exact of _ (s.writeBlind_request v) h
  case writeRule i v => exact of _ (s.writeRule_request i v) h
  case writeWindow i v => exact of _ (s.writeWindow_request i v) h
  case writeStage i v => exact of _ (s.writeStage_request i v) h
  case writeTraceSetting i v => exact of _ (s.writeTrace_request i v) h
  case writeAlertEnables v => exact of _ (s.writeAlert_request v) h
  case writeCue i v => exact of _ (s.writeCue_request i v) h
  case writeTime v => exact of _ (s.writeTime_request v) h
  case writeItem g i v =>
    change (if _ then some (s.writeItem g i v) else none) = _ at h
    split at h
    · exact of _ (s.writeItem_request g i v) h
    · exact no h

/-- The port admits what the statements say it serves. -/
theorem State.Serves.admits {s : State} {c : Instr} (h : s.Serves c) : s.admits c = true := by
  unfold State.admits
  split
  · rfl
  · next w hw => exact beq_iff_eq.mpr (h.2 w hw)

/-- The row of a request that has an effect is the port's service of it. -/
theorem exec_of_requestEffect {s : State} {c : Instr} {p : State × Answer} (h : s.requestEffect c = some p) :
    exec c s = s.serve c := by
  have no : (none : Option (State × Answer)) = some p → exec c s = s.serve c := nofun
  cases c <;> first
    | exact no h
    | rfl
    | skip
  case writeItem g i v =>
    change (if _ then some (s.writeItem g i v) else none) = _ at h
    change execWriteItem g i v s = _
    unfold execWriteItem
    split at h
    · next hl => rw [if_neg (Nat.not_lt.mpr hl)]
    · exact no h

/-- The row of a request that has an effect is its effect, with its answer to the port (R183). -/
theorem exec_request {s t : State} {c : Instr} {a : Answer} (h : s.requestEffect c = some (t, a))
    (hs : s.Serves c) : exec c s = .next (t.respond a) := by
  rw [exec_of_requestEffect h, s.serve_up c hs.1 hs.admits, s.request_of h]

/-- While another request waits the row of a request is no event (log entry 12). -/
theorem exec_request_other {s : State} {c : Instr} {p : State × Answer} (h : s.requestEffect c = some p)
    (hs : s.admits c = false) : exec c s = .next s := by
  rw [exec_of_requestEffect h, s.serve_other c hs]

/-! ### One step of the queue -/

@[simp] theorem step_nil (s : State) (h : s.pending = []) : step s = .next s := by
  simp [step, h]

theorem step_cons (s : State) (c : Instr) (rest : List Instr) (h : s.pending = c :: rest) :
    step s = exec c { s with pending := rest } := by
  simp [step, h]

end Sys2Proof.Machine
end

