-- ==== Sys2Proof/Tests/Slice0.lean ====
section
/-! SUPPORT. Tests on small states: ill-formed terms, worked examples of the spec, and for every statement with
hypotheses a state that meets them (`test_met_…`). -/
namespace Sys2Proof.Tests
open Sys2Proof Sys2Proof.Machine

/-! ### Well-formedness: one ill-formed term for each check -/

theorem test_wf_frameAborted : (Instr.frameAborted [0x03]).wf = false := by decide
theorem test_wf_frameAborted_whole_item : (Instr.frameAborted [0x02, 0x01, 0x00, 0x01]).wf = false := by decide
theorem test_wf_unknownRequest : (Instr.unknownRequest 0x5A).wf = false := by decide
theorem test_wf_writeRule : (Instr.writeRule 22 0).wf = false := by decide
theorem test_wf_writeWindow : (Instr.writeWindow 16 0).wf = false := by decide
theorem test_wf_writeStage : (Instr.writeStage 8 0).wf = false := by decide
theorem test_wf_writeTraceSetting : (Instr.writeTraceSetting 7 0).wf = false := by decide
theorem test_wf_writeCue : (Instr.writeCue 4 0).wf = false := by decide
theorem test_wf_writeItem : (Instr.writeItem 0x02 0 [1, 2]).wf = false := by decide
theorem test_wf_good :
    (Instr.writeItem 0x02 0 [1, 4, 0]).wf = true ∧ (Instr.frameAborted [0x01, 0x03]).wf = true := by
  decide

/-! ### States -/

/-- Reset with words 0 and 1 VALID (L 4, LINEAR, read delay 4, write delay 3, posted delay `pd`) and masking
on. -/
def ready (pd : BitVec 3) : State :=
  { State.reset with
    modes :=
      { word0 := some { len := .four, order := .linear, readDelay := 4 }
        word1 := some { writeDelay := 3, postedDelay := pd }
        word2 := some { maskOn := true } } }

/-- An entry of a READ or WRITE of bank 1, row 5, column 9, with its two slots. -/
def entry (number : Nat) (kind : AccessKind) (phase : Phase) (effect data : Slot) : Entry :=
  { number := number, kind := kind, bank := 1, row := some 5, column := 9, len := .four, order := .linear
    autoClose := false, posted := true, effectSlot := effect, dataSlot := data, map := AddrMap.default
    phase := phase, beatsSeen := 0, candidates := 0, hits := 0, satisfied := 0, guard := []
    doubtful := false, rowless := false, cutFlag := false, captured := some [], account := none }

/-- `ready` in slot `now` with the entries given in flight. -/
def flying (now : Slot) (l : List Entry) : State :=
  { ready 1 with now := now, tracker := l, nextNumber := l.length }

def withBank (s : State) (b : BankNo) (st : BankState) : State :=
  s.setBank b { s.bank b with state := st }

def aRecord : Record := .channel .sleepEnter 0

/-- Capture in RUN with one record staged as an event. -/
def capturing : State :=
  { State.reset with
    capture := { Capture.default with state := .run, event := { records := [aRecord], lost := 0 } } }

def asState (c : ChanState) : State := { State.reset with chan := c }

/-- CAPTURE-ALL with capture in RUN. -/
def capturingAll (s : State) : State :=
  { s with
    capture :=
      { Capture.default with
        state := .run, settings := { TraceSettings.default with captureAll := true } } }

/-- Window 0 enabled over the whole address space with every action; window 1 the same with a data condition. -/
def watching (s : State) : State :=
  let fields : WindowFields :=
    { Window.default.fields with
      enable := true, high := BitVec.allOnes 35
      actions := { count := true, capture := true, captureData := true, cue := true, seq := true, guard := true } }
  { s with
    windows :=
      (s.windows.set 0 { Window.default with fields := fields }).set 1
        { Window.default with fields := { fields with cond := some (.w64, .any) } } }

/-- Eight entries in flight. -/
def full : State := flying 0 ((List.range 8).map fun n => entry n .read .waiting 3 9)

/-- ARMED in stages that use every violation, ASLEEP, with the queue and the event records given. -/
def waitingFor (queue : List Occurrence) (records : List Record) : State :=
  { asState .asleep with
    seq :=
      { Sequencer.default with
        state := .armed, queue := queue
        stages := Vector.replicate 8 { Stage.default with termA := .violation (BitVec.allOnes 22) } }
    capture :=
      { Capture.default with
        state := .run, event := { records := records, lost := 0 }
        settings :=
          { TraceSettings.default with
            classes := { violation := true, guard := true, stage := true, cue := true, channel := true } } } }

/-! ### Worked examples of the spec -/

/-- R15: bank 5, row 4660, column 421, lane 3 under both map orders. -/
theorem test_flat_addresses :
    compositeIndex { order := .brc, rowBits := 16, colBits := 10 } 5 4660 421 * 8 + 3 = 2722532651 ∧
    compositeIndex { order := .rbc, rowBits := 16, colBits := 10 } 5 4660 421 * 8 + 3 = 610839851 := by
  decide

/-- R7: start column 421 under EXCHANGE, start column 421 under LINEAR, L 8. -/
theorem test_beat_columns :
    (List.range 8).map (beatColumn AddrMap.default .eight .exchange 421) =
      [421, 420, 423, 422, 417, 416, 419, 418] ∧
    (List.range 8).map (beatColumn AddrMap.default .eight .linear 421) =
      [421, 422, 423, 416, 417, 418, 419, 420] := by
  decide

theorem test_no_word_spells_a_command : decodeTableWord 16 7 = none := by decide

theorem test_reset_idles : step State.reset = .next State.reset := by rfl

/-- The STATUS item at reset: LIVE, OFF, IDLE, empty store, no cause. -/
theorem test_status_at_reset : State.reset.statusBytes = [0, 0, 0, 0, 0, 0, 0, 0, 0, 0] := by decide

/-- MODE LOAD of word 1 with posted delay 7 makes it INVALID; write delay 3, posted delay 6 VALID (R3). -/
theorem test_mode_word_1 :
    modeWord1Of 0x0073 = none ∧ modeWord1Of 0x0063 = some { writeDelay := 3, postedDelay := 6 } := by
  decide

/-- An OPEN that comes one slot after another OPEN breaks C2 (rule 1) and no other rule. -/
theorem test_open_to_open :
    brokenRules
      { ready 1 with
        now := 1
        banks := (ready 1).banks.set 0 { Bank.blank (.opened 3) with openStamp := some 0 } }
      (.openBank 1 5) = 2 := by
  decide

/-! ### Every hypothesis is met: the machine as a whole and the frames -/

/-- Every command answers a next state somewhere; the slot advance is the command of these witnesses. -/
theorem test_met_next (s : State) : ∃ t, exec .slotAdvance s = .next t := ⟨_, rfl⟩

theorem test_met_TrackerInvariantKept :
    ({ flying 3 [entry 0 .read .streaming 1 3, entry 1 .write .waiting 2 5] with
       pending := [.slotAdvance] } : State).TrackerInv := by
  decide

theorem test_met_CaptureInvariantKept : capturing.TrackerInv := by decide
theorem test_met_CaptureInvariantKept_capture : capturing.capture.Inv := by decide

theorem test_met_SequencerInvariantKept :
    ({ State.reset with seq := { Sequencer.default with state := .armed, entry := true } } : State).SequencerInv := by
  decide

theorem test_met_ChannelInvariantKept : State.reset.ChannelInv := by decide
theorem test_met_SettingsInvariantKept : State.reset.SettingsInv := by decide

/-- A port whose frame is in its turnaround byte and whose request waits. -/
def busyPort : Port :=
  { frame := .turnaround, bits := [true, false], waiting := some .readStatus, reply := .due }

/-- Reset with that port. -/
def busy : State := { State.reset with port := busyPort }

theorem test_met_PortInvariantKept : busyPort.Inv ∧ State.reset.port.Inv := by
  simp [Port.Inv, busyPort, FramePhase.active, State.reset, State.powerOn, Port.released, Port.ready]

/-- A slot with no command of those named, none waiting, another one waiting and taken at the slot's end. -/
theorem test_met_OnlyProgrammingCommandsProgram :
    State.reset.Spares Instr.programs .slotAdvance ∧ busy.Spares Instr.programs .slotAdvance ∧
    busy.Spares Instr.programs .refresh ∧ busy.performs .slotAdvance = [.slotAdvance, .readStatus] ∧
    ¬ ({ busy with port := { busyPort with waiting := some .softReset } } : State).Spares
      Instr.programs .slotAdvance := by
  decide

theorem test_met_OnlyClockCommandsMoveTime : Instr.closeAll.setsClock = false := by decide
theorem test_met_OnlyTheirCommandsReachTheBlocks :
    Instr.readStatus.reachesShadow = false ∧ Instr.readStatus.reachesTracker = false ∧
    Instr.readStatus.reachesChecker = false ∧ Instr.readStatus.reachesWindows = false ∧
    Instr.readStatus.reachesForwarding = false ∧ Instr.readStatus.reachesStore = false ∧
    Instr.readStatus.reachesSequencer = false ∧ Instr.readStatus.reachesCapture = false ∧
    Instr.readStatus.reachesAlert = false ∧ Instr.readStatus.reachesCues = false ∧
    Instr.refresh.reachesPort = false := by
  decide

/-- The port serves a request while none waits and while the same one waits. -/
theorem test_met_Serves (c : Instr) :
    State.reset.Serves c ∧ ({ State.reset with port := { Port.ready with waiting := some c } } : State).Serves c :=
  ⟨⟨rfl, fun _ h => nomatch h⟩, rfl, fun _ h => by cases h; rfl⟩

/-- Reset with window 15 LOCKED. -/
def oneLocked : State :=
  { State.reset with windows := State.reset.windows.set 15 { Window.default with locked := true } }

theorem test_met_LockedWindowIsFrozen :
    oneLocked.porst = false ∧ oneLocked.windows[(15 : Fin 16)].locked = true := by
  decide

/-- Reset with a filled first-violation record and window 15 LOCKED. -/
def withFindings : State :=
  { oneLocked with
    checker := { Checker.default with first := some { cmd := .refresh, chan := .live, rules := 1, stamp := 0 } } }

theorem test_met_FindingsStayUntilCleared : withFindings.SettingsInv := by decide
theorem test_met_FindingsStayUntilCleared_rest :
    withFindings.porst = false ∧ withFindings.checker.first.isSome = true ∧
    withFindings.windows[(15 : Fin 16)].locked = true := by
  decide

/-! ### Commands on the channel -/

theorem test_met_arrival_in_live : State.reset.Listens ∧ State.reset.chan = .live := by decide

theorem test_met_OpenActs_states :
    (withBank State.reset 15 (.opened 131071)).Listens ∧ (withBank State.reset 15 (.closing 0 3)).Listens ∧
    (withBank State.reset 15 .closed).Listens := by
  decide

theorem test_met_AccessStampsItsBank :
    (ready 6).Listens ∧ (ready 6).chan = .live ∧ (ready 6).modes.word0.isSome = true := by
  decide

theorem test_met_AccessIsTracked :
    (ready 0).TrackerInv ∧ (ready 6).TrackerInv := by
  decide

theorem test_met_AccessIsTracked_full_but_one :
    ((flying 0 ((List.range 7).map fun n => entry n .read .waiting 3 9)).tracker.length < 8 ∧
     (flying 0 []).modes.word1 = some { writeDelay := 3, postedDelay := 1 }) := by
  decide

theorem test_met_AccessIsUntracked_state :
    (capturingAll (asState .asleep)).Listens ∧ (capturingAll (asState .asleep)).chan ≠ .live ∧
    (capturingAll (asState .asleep)).capture.settings.captureAll = true ∧
    (capturingAll (asState .asleep)).capture.state = .run := by
  decide

theorem test_met_AccessIsUntracked_modeUnset :
    (capturingAll State.reset).Listens ∧ (capturingAll State.reset).chan = .live ∧
    (capturingAll State.reset).modes.word0 = none := by
  decide

theorem test_met_AccessIsUntracked_full :
    (capturingAll full).Listens ∧ (capturingAll full).chan = .live ∧
    (capturingAll full).modes.word0.isSome = true ∧ (capturingAll full).modes.word1.isSome = true ∧
    8 ≤ (capturingAll full).tracker.length := by
  decide

/-- An untracked WRITE of a watched row makes a report; one without a row a blind report; both set GUARD_UNABLE. -/
theorem test_untracked_write_is_reported :
    let live := ((watching (withBank full 1 (.opened 5))).trackArrival (.access .write 1 9 false))
    let blind := ((watching (asState .asleep)).trackArrival (.access .write 1 9 false))
    live.1.alert.latches = 8 ∧
    (live.2.records.map fun r => match r with
      | .guard r => (r.unprotected, r.untracked, r.window)
      | _ => (0, false, none)) = [(4, true, some 0)] ∧
    blind.2.occurrences = [.guardEvent] ∧ blind.1.alert.latches = 8 := by
  decide +kernel

theorem test_met_ModeLoadSleepAndRefreshAct :
    State.reset.Listens ∧ (asState .asleep).Listens ∧ (asState .asleep).chan ≠ .live := by
  decide

theorem test_met_CommandsThatOnlyPass :
    (asState .resetHeld).Listens ∧ (asState .asleep).Listens ∧ (asState .asleep).chan = .asleep ∧
    Cmd.closeAll ≠ .sleepExit := by
  decide

/-- A REFRESH in ASLEEP breaks Q8 alone; its occurrence and its record find a place, the last place, or none. -/
theorem test_met_ViolationIsCounted :
    let places (s : State) := (s.seq.queue.length, s.capture.event.records.length)
    brokenRules (waitingFor [] []) .refresh = BitVec.twoPow 22 19 ∧ (waitingFor [] []).Listens ∧
    ((waitingFor [] []).trackArrival .refresh).2 = Offers.none ∧
    places ((waitingFor [] []).takeCommand .refresh) = (1, 1) ∧
    places
      ((waitingFor (List.replicate 15 .interval) (List.replicate 7 aRecord)).takeCommand .refresh) = (16, 8) ∧
    (let t := (waitingFor (List.replicate 16 .interval) (List.replicate 8 aRecord)).takeCommand .refresh
     places t = (16, 8) ∧ t.capture.event.lost = 1 ∧ t.alert.latches = 0b0110000001) := by
  decide +kernel

/-- Two banks with stamps, the later one in bank 3; C2 and C7 measure from it. -/
theorem test_met_RulesAreJudged :
    let bank (x : Slot) : Bank := { Bank.blank .closed with openStamp := some x, lastWriteEnd := some x }
    let s : State := { ready 1 with now := 9, banks := ((ready 1).banks.set 2 (bank 4)).set 3 (bank 8) }
    (s.bank 3).openStamp = some 8 ∧ 0 < ((8 : Slot) - 4).toInt ∧
    (brokenRules s (.openBank 1 0)).getLsbD 1 = true ∧ (brokenRules s (.openBank 3 0)).getLsbD 1 = false ∧
    (brokenRules s (.access .read 1 0 false)).getLsbD 6 = true := by
  decide +kernel

/-- A READ moves the read data end stamp forward only. -/
theorem test_met_RulesAreJudged_readEnd :
    let s (x : Slot) : State := { ready 1 with checker := { Checker.default with readEnd := some x } }
    (s 6).Listens ∧ (s 6).chan = .live ∧ readEndAfter (s 6) (.access .read 0 0 false) = some 7 ∧
    readEndAfter (s 8) (.access .read 0 0 false) = some 8 ∧
    readEndAfter (ready 1) (.access .read 0 0 false) = some 7 := by
  decide

theorem test_met_NextCommandIsMeasured :
    let s : State := { State.reset with checker := { Checker.default with measure := some (.refresh, 0) } }
    s.Listens ∧ s.checker.measure = some (.refresh, 0) ∧ s.fwd.mrst = false ∧ s.turns.mrst = false := by
  decide

/-! ### Reset lines, auto-close, forwarding -/

theorem test_met_MemoryResetActs_assertion :
    State.reset.porst = false ∧ State.reset.turns.mrst = false ∧ State.reset.fwd.mrst = false := by
  decide

/-- RESET HELD. -/
def held : State :=
  { asState .resetHeld with
    banks := Vector.replicate 16 (Bank.blank .closed)
    fwd := { State.reset.fwd with mrst := true } }

/-- Both entries in flight are abandoned and staged, in the order of the list. -/
theorem test_met_MemoryResetActs_abandoned :
    let s := capturingAll (flying 2 [entry 0 .read .posted 3 7, entry 1 .read .waiting 2 9])
    s.capture.settings.captureAll = true ∧ s.capture.state = .run ∧
    s.capture.access.records.length + s.tracker.length ≤ 4 ∧
    (s.assertReset.capture.access.records.map fun r => match r with
      | .access a => (a.outcome, a.stamp)
      | _ => (none, 0)) = [(some .abandoned, 3), (some .abandoned, 2)] := by
  decide +kernel

theorem test_met_MemoryResetActs_release : held.ChannelInv ∧ held.fwd.mrst = true ∧ held.turns.mrst = false := by
  decide

theorem test_met_PowerOnResetActs : ({ State.reset with porst := true } : State).porst = true := by decide

/-- What the pins of the port do in the slot that PORST_N cuts, and in one under PORST_N, goes by. -/
theorem test_wires_under_reset :
    let s : State := { State.reset with wires := [[.select], [.deselect], []] }
    let port (c : Instr) (s : State) : Option (List (List Wire)) := match exec c s with
      | .next t => some t.wires
      | _ => none
    port .powerOnResetAssert s = some [[.deselect], []] ∧
    port .slotAdvance { s with porst := true } = some [[.deselect], []] := by
  decide

/-- A frame whose SSEL_N is low at the release stays ignored until SSEL_N rises; the next one counts. -/
theorem test_frame_over_the_release :
    let p := Port.released true
    p.run (wireOfByte 0x03) = p ∧ (p.run [.deselect, .select]).frame = .request [] := by
  decide

/-- A READ STATUS frame sent between the release and the first slot waits into that slot and is answered there; with
its turnaround byte over before the slot begins its answer is lost, and a second frame is discarded (R184). -/
theorem test_request_before_the_first_slot :
    let frame : List Wire := .select :: wireOfByte 0x03
    let first (l : List Wire) : State :=
      (({ State.reset with porst := true, wires := [l, []] } : State).powered false false 0 false).takeWires
    let late := first (frame ++ wireOfByte 0 ++ [.deselect, .select] ++ wireOfByte 0x18)
    (first frame).port.waiting = some .readStatus ∧ (first frame).port.reply = .due ∧
    (first frame).turns.firstSlot = true ∧ (first frame).wires = [[]] ∧
    (first frame).lastEvents.port.waiting = none ∧
    late.port.waiting = some .readStatus ∧ late.port.sdoByte = some 0xFF ∧
    (late.lastEvents.port.run (wireOfByte 0)).sdoByte = some 0xFF ∧ late.lastEvents.seq.state = .idle := by
  decide +kernel

theorem test_met_AutoCloseCompletes :
    ((withBank State.reset 15 (.closing 7 0)).bank 15).state =
      .closing 7 (withBank State.reset 15 (.closing 7 0)).now ∧
    (State.reset.bank 15).state = .unknown := by
  decide

/-- A held write with guard lanes on its second beat, from entry 0 at position 2. -/
def heldWrite : HeldWrite :=
  { first := { beat := { data := 1, mask := 0 }, guard := 0 }
    second := { beat := { data := 2, mask := 1 }, guard := 0x80 }
    source := some (0, 2) }

/-- A WRITE in flight with its account, whose beats are due on the D-side, and a command and read beats due. -/
def forwarding : State :=
  { flying 5
      [{ entry 0 .write .streaming 1 4 with
         beatsSeen := 4, captured := none, guard := [0, 0, 0, 0x80]
         account := some (Account.start [0, 0, 0, 0] 1 .none) }] with
    fwd :=
      { State.reset.fwd with
        txWrite := some heldWrite, txCommand := some (.command .refresh), txRead := some (1, 2) } }

theorem test_met_SlotPassesAndForwards :
    forwarding.porst = false ∧ forwarding.fwd.txCommand = some (.command .refresh) ∧
    forwarding.fwd.txRead = some (1, 2) := by
  decide

theorem test_met_WriteBeatsAreForwardedAndCounted :
    forwarding.fwd.txWrite = some heldWrite ∧ heldWrite.source = some (0, 2) ∧
    ((forwarding.entry? 0).bind Entry.account).isSome = true := by
  decide

/-- The same WRITE retired before its last beats are driven: its account waits. -/
def retired : State :=
  { forwarding with tracker := [], waiting := forwarding.tracker }

theorem test_met_WriteBeatsAreForwardedAndCounted_waiting :
    let more : State := { retired with fwd := { retired.fwd with rxWrite := some heldWrite } }
    retired.entry? 0 = none ∧
    ((retired.waiting.find? fun x => x.number == 0).bind Entry.account).isSome = true ∧
    retired.fwd.rxWrite = none ∧ more.fwd.rxWrite = some heldWrite ∧ heldWrite.source = some (0, 2) := by
  decide

/-- With its last beat driven the account closes and reports; while a beat is to come it waits on. -/
theorem test_waiting_account_closes :
    let more : State := { retired with fwd := { retired.fwd with rxWrite := some heldWrite } }
    let ended := waitingFor [] []
    let both : State := { retired with seq := ended.seq, capture := ended.capture }
    both.forwardWrite.waiting = [] ∧ both.forwardWrite.alert.latches = 2 ∧
    both.forwardWrite.capture.event.records.length = 1 ∧
    more.forwardWrite.waiting.length = 1 ∧ more.forwardWrite.alert.latches = 0 := by
  decide +kernel

/-- The forwarded second beat has its guarded lane forced, and is counted. -/
theorem test_forwarded_beat_is_forced :
    forwarding.forwardWrite.fwd.pins.writeBeats =
      some ({ data := 1, mask := 0 }, { data := 2, mask := 0x81 }) ∧
    ((forwarding.forwardWrite.entry? 0).bind Entry.account).map (fun a => (a.forced, a.firstPosition)) =
      some (1, some 3) := by
  decide

/-! ### Beats and tracker events -/

theorem test_met_WriteBeatsAreAttributed :
    (flying 5 [entry 0 .write .waiting 2 5]).TrackerInv ∧
    ((flying 5 [entry 0 .write .waiting 2 5]).takeBack.settleHolder.openHolder .write 5).isSome = true ∧
    ((flying 6 [entry 0 .write .waiting 2 7]).takeBack.settleHolder.openHolder .write 6).isSome = false ∧
    (flying 5 []).directionFixed = false ∧ (flying 5 []).turns.readTaken = none := by
  decide

/-- Read beats taken in a slot whose C-side strobe comes after them in the queue are taken back (R12). -/
theorem test_read_beats_are_taken_back :
    let before := flying 6 [entry 0 .read .streaming 1 5]
    let taken := before.receiveRead 7 8
    taken.turns.readTaken = some (0, 0) ∧ taken.directionFixed = false ∧ taken.porst = false ∧
    (taken.entry? 0).map Entry.beatsSeen = some 2 ∧ taken.takeBack.tracker = before.tracker ∧
    taken.takeBack.fwd.rxRead = none := by
  decide +kernel

theorem test_met_ReadBeatsAreAttributed :
    (flying 6 [entry 0 .read .streaming 1 5]).TrackerInv ∧
    ((flying 6 [entry 0 .read .streaming 1 5]).openHolder .read 5).isSome = true ∧
    ((flying 5 [entry 0 .read .streaming 1 5]).openHolder .read 4).isSome = false ∧
    (flying 6 []).turns.readBeats = false ∧ (flying 6 []).turns.writeBeats = false := by
  decide

theorem test_met_VoidSlotsAreResolved :
    (flying 6 [entry 0 .read .streaming 1 5]).openHolder .read 5 = some (entry 0 .read .streaming 1 5) ∧
    (flying 5 [entry 0 .write .waiting 2 5]).openHolder .read 4 = none ∧
    (flying 5 [entry 0 .write .waiting 2 5]).allData.openHolder .write 5 =
      some (entry 0 .write .streaming 2 5) := by
  decide

/-- A POSTED entry whose effect slot is `now`. -/
def posted (kind : AccessKind) (row : Option Row) : Entry :=
  { entry 0 kind .posted 3 6 with row := row, rowless := row.isNone, captured := none }

theorem test_met_EffectSlotIsTaken :
    (flying 3 [posted .read (some 0)]).TrackerInv ∧ (flying 3 [posted .write none]).TrackerInv ∧
    (posted .write none).effectSlot = (flying 3 []).now ∧ (posted .write none).phase = .posted ∧
    (posted .write (some 3)).burst.isSome = true := by
  decide

/-- Window 0 LOCKED and the policy BLOCK. -/
def lockedWatch (s : State) : State :=
  let w := watching s
  { w with blind := .block, windows := w.windows.set 0 { w.windows[(0 : Fin 16)] with locked := true } }

/-- A WRITE with a row takes its masks and locked shares from the guard windows, one without a row is guarded whole
under BLOCK (R105, R106). -/
theorem test_effect_slot_guards :
    let taken (row : Option Row) :=
      let s := lockedWatch (flying 3 [posted .write row])
      ((s.effectStep 0).entry? 0).bind fun e => e.account.map fun a =>
        (e.guard, a.lockedShare, a.contributing, a.blind)
    taken (some 5) = some ([0xFF, 0xFF, 0xFF, 0xFF], [0xFF, 0xFF, 0xFF, 0xFF], 3, .none) ∧
    taken none = some ([0xFF, 0xFF, 0xFF, 0xFF], [0, 0, 0, 0], 0, .block) := by
  decide +kernel

/-- The effect slot of a watched WRITE decides its hit, which counts and offers its occurrence. -/
theorem test_effect_slot_hits :
    let s := watching (flying 3 [posted .write (some 5)])
    let t := s.effectStep 0
    (t.entry? 0).map (fun e => (e.candidates, e.hits)) = some (3, 1) ∧
    t.windows[(0 : Fin 16)].hitCount = 1 ∧ t.windows[(1 : Fin 16)].hitCount = 0 ∧
    s.seqHits 1 = [.windowHit 0] := by
  decide +kernel

theorem test_met_DataSlotTakesTheBus_free :
    (flying 5 [entry 0 .write .waiting 2 5]).TrackerInv ∧
    (flying 5 [entry 0 .write .waiting 2 5]).streamer = none := by
  decide

/-- Entry 0 or 1 STREAMING before the other takes the bus in slot 5, with CAPTURE-ALL on. -/
def contest (e n : Entry) : State := capturingAll (flying 5 [e, n])

def ended : State :=
  contest { entry 0 .write .streaming 1 3 with beatsSeen := 4, captured := none } (entry 1 .write .waiting 2 5)
def goesOn : State :=
  contest { entry 0 .write .streaming 1 4 with beatsSeen := 2, captured := none } (entry 1 .write .waiting 2 5)
def older : State :=
  contest (entry 0 .write .waiting 1 5) { entry 1 .write .streaming 2 5 with captured := none }
def newer : State :=
  contest { entry 0 .write .streaming 1 5 with captured := none } (entry 1 .write .waiting 2 5)

/-- An older WRITE STREAMING whose window is over, one whose window goes on, one whose data slot is the same and
which arrived before, one which arrived after. -/
theorem test_met_DataSlotTakesTheBus_taken :
    (ended.streamer.map fun e => (ended.awaitsBeats e, e.covers 5)) = some (false, false) ∧
    (goesOn.streamer.map fun e => (goesOn.awaitsBeats e, e.covers 5, e.dataSlot == 5)) =
      some (false, true, false) ∧
    (newer.streamer.map fun e => (newer.awaitsBeats e, e.covers 5, e.dataSlot == 5, e.number)) =
      some (false, true, true, 0) ∧
    (older.streamer.map fun e => (older.awaitsBeats e, e.covers 5, e.dataSlot == 5, e.number)) =
      some (false, true, true, 1) := by
  decide

theorem test_met_DataSlotTakesTheBus_staged :
    ended.capture.settings.captureAll = true ∧ ended.capture.state = .run ∧
    ended.capture.access.records.length + 1 ≤ 4 := by
  decide

/-- Who retires, and how: DONE, CUT, CUT, CUT. -/
theorem test_bus_outcomes :
    let out (s : State) (n : Nat) := (s.dataStep n).capture.access.records.map fun r => match r with
      | .access a => (a.outcome, a.stamp)
      | _ => (none, 0)
    out ended 1 = [(some .done, 1)] ∧ out goesOn 1 = [(some .cut, 1)] ∧ out newer 1 = [(some .cut, 1)] ∧
    out older 0 = [(some .cut, 1)] := by
  decide +kernel

theorem test_met_DataSlotTakesTheBus_inv :
    ended.TrackerInv ∧ goesOn.TrackerInv ∧ older.TrackerInv ∧ newer.TrackerInv :=
  ⟨by decide, by decide, by decide, by decide⟩

/-- An entry that has held all its slots, with CAPTURE-ALL on and capture in RUN. -/
def finished : State :=
  capturingAll (flying 7 [{ entry 0 .read .streaming 1 5 with beatsSeen := 4, captured := none }])

theorem test_met_EntryRetiresDone :
    finished.TrackerInv ∧ finished.now = (5 : Slot) + BitVec.ofNat 48 2 ∧ finished.capture.state = .run ∧
    finished.capture.settings.captureAll = true := by
  decide

/-- The retirement stages one ACCESS record and empties the list. -/
theorem test_done_is_staged :
    (finished.doneStep 0).capture.access.records.length = 1 ∧ (finished.doneStep 0).tracker = [] := by
  decide

/-- A finished WRITE with a forced beat, without and with a beat received and not yet driven. -/
def finishedWrite (last : Option HeldWrite) : State :=
  { flying 7
      [{ entry 0 .write .streaming 1 5 with
         beatsSeen := 4, captured := none, guard := [1, 0, 0, 0]
         account := some { Account.start [0, 0, 0, 0] 1 .none with forced := 1 } }] with
    fwd := { State.reset.fwd with txWrite := last } }

theorem test_met_EntryRetiresDone_write :
    (finishedWrite none).TrackerInv ∧ (finishedWrite (some heldWrite)).TrackerInv ∧
    (((finishedWrite none).entry? 0).bind fun e => e.account.bind fun a => reportOf e a).isSome = true ∧
    (finishedWrite none).fwd.holdsBeatOf 0 = false ∧
    (finishedWrite (some heldWrite)).fwd.holdsBeatOf 0 = true := by
  decide

/-- The account closes with its report, or waits. -/
theorem test_retired_account :
    ((finishedWrite none).doneStep 0).alert.latches = 2 ∧ ((finishedWrite none).doneStep 0).waiting = [] ∧
    ((finishedWrite (some heldWrite)).doneStep 0).alert.latches = 0 ∧
    ((finishedWrite (some heldWrite)).doneStep 0).waiting.length = 1 := by
  decide +kernel

/-- A finished READ of watched windows in RUN with CAPTURE-ALL off and the access records given: window 0 hit at the
effect slot, the condition of window 1 was met. -/
def lateHit (staged : List Record) : State :=
  watching
    { flying 7
        [{ entry 0 .read .streaming 1 5 with
           beatsSeen := 4, captured := none, candidates := 3, hits := 1, satisfied := 2 }] with
      capture := { Capture.default with state := .run, access := { records := staged, lost := 0 } } }

/-- The late hit acts alone, and its CAPTURE action stages the record with both hits, or counts it as lost (R97, R98,
R148, R154, R155). -/
theorem test_met_EntryRetiresDone_late :
    let s := lateHit []
    let t := s.doneStep 0
    let full := (lateHit [aRecord, aRecord, aRecord, aRecord]).doneStep 0
    s.capture.settings.captureAll = false ∧ (s.tracker.map fun e => s.lateOf e) = [2] ∧
    t.windows[(0 : Fin 16)].hitCount = 0 ∧ t.windows[(1 : Fin 16)].hitCount = 1 ∧
    (t.capture.access.records.map fun r => match r with
      | .access a => (a.hits, a.data)
      | _ => (0, true)) = [(3, false)] ∧
    full.capture.access.records.length = 4 ∧ full.capture.access.lost = 1 ∧
    full.alert.latches.getLsbD 8 = true := by
  decide +kernel

theorem test_met_EntryRetiresDone_late_inv : (lateHit []).TrackerInv := by decide

/-- A slot whose turns are all taken, with entries not due yet and nothing held. -/
def allTurnsTaken : State :=
  { flying 2 [entry 0 .read .posted 3 7, entry 1 .read .waiting 2 9] with
    turns :=
      { command := true, mrst := true, writeBeats := true, readBeats := true, take := true, interval := true
        pick := true, unit := true, byAdvance := true, firstSlot := false, pins := 0b1000, softReset := false
        readTaken := some (7, 0) } }

theorem test_met_EventsNotDueChangeNothing : allTurnsTaken.TrackerInv := by decide

theorem test_met_EventsNotDueChangeNothing_clauses :
    allTurnsTaken.turns.command = true ∧ allTurnsTaken.fwd.mrst = false ∧ held.fwd.mrst = true ∧
    (entry 0 .read .posted 3 7).effectSlot ≠ allTurnsTaken.now ∧ allTurnsTaken.seq.expiry ≠ some allTurnsTaken.now ∧
    allTurnsTaken.capture.writer = none ∧ (allTurnsTaken.cue 3).active = false ∧ allTurnsTaken.fwd.txWrite = none ∧
    allTurnsTaken.openHolder .read 1 = none ∧ allTurnsTaken.allData.openHolder .write 2 = none ∧
    allTurnsTaken.turns.pins.getLsbD 3 = true ∧ allTurnsTaken.directionFixed = true ∧
    allTurnsTaken.port.waiting = none ∧ requestComplete [0x03] = true ∧
    (requestBytes .arm).isSome = true ∧ Instr.arm.wf = true ∧ requestForm .readStatus ≠ requestForm .arm ∧
    ((flying 6 [entry 0 .read .streaming 1 5]).streamer.map (flying 6 []).awaitsBeats) = some true := by
  decide

/-! ### Windows and sequencer -/

theorem test_met_BurstAddressesFollowTheMap :
    AddrMap.Inv { order := .rbc, rowBits := 17, colBits := 11 } ∧
    AddrMap.Inv { order := .brc, rowBits := 12, colBits := 9 } := by
  decide

/-- ARMED in a stage with term A ALWAYS, N and trigger action as given. -/
def armed (n : BitVec 16) (trigger entry : Bool) (queue : List Occurrence) : State :=
  { State.reset with
    seq :=
      { Sequencer.default with
        state := .armed, entry := entry, queue := queue, expiry := some 0
        stages := Vector.replicate 8
          { Stage.default with
            n := n, t := 5
            condActions := { startCapture := true, stopCapture := false, trigger := trigger, cue := true, alert := true }
            timeoutActions := { startCapture := false, stopCapture := true, trigger := trigger, cue := true, alert := true } } } }

theorem test_met_OccurrenceIsTaken_entry :
    let s := armed 1 true true []
    s.porst = false ∧ s.seq.state = .armed ∧ s.turns.take = false ∧ s.seq.entry = true ∧
    (s.stageOf s.seq.stage).termA.meets .entry = true ∧ (s.stageOf s.seq.stage).n.toNat ≤ s.seq.count + 1 ∧
    (s.stageOf s.seq.stage).condActions.trigger = true := by
  decide

theorem test_met_OccurrenceIsTaken_below :
    let s := armed 2 false true []
    s.seq.state = .armed ∧ s.turns.take = false ∧ s.seq.entry = true ∧
    (s.stageOf s.seq.stage).termA.meets .entry = true ∧ s.seq.count + 1 < (s.stageOf s.seq.stage).n.toNat := by
  decide

theorem test_met_OccurrenceIsTaken_queued :
    let s := armed 1 false false [.interval]
    s.seq.state = .armed ∧ s.turns.take = false ∧ s.seq.entry = false ∧ s.seq.queue = [.interval] ∧
    (s.stageOf s.seq.stage).termA.meets (.queued .interval) = false := by
  decide

/-- At N with the trigger action the take enters TRIGGERED and capture, started by the same transition, runs into
POST with its post counter loaded (R143). -/
theorem test_take_triggers :
    let t := (armed 1 true true []).takeTurn
    t.seq.state = .triggered ∧ t.capture.state = .post ∧ t.capture.postCounter = 1024 := by
  decide

theorem test_met_StageTimesOut :
    (armed 1 true true []).seq.expiry = some (armed 1 true true []).now ∧
    (armed 1 false true []).seq.expiry = some (armed 1 false true []).now ∧
    ((armed 1 true true []).stageOf 0).timeoutActions.trigger = true ∧
    ((armed 1 false true []).stageOf 0).timeoutActions.trigger = false := by
  decide

theorem test_met_ArmAndDisarmAct :
    State.reset.turns.softReset = false ∧ State.reset.resetSoftly.turns.softReset = true ∧
    State.reset.resetSoftly.porst = false := by
  decide

/-- An ARM after a soft reset of the same slot leaves IDLE; in the next slot it enters stage 0 (R126). A STAGE write
in range leaves the default table in that slot (R138). -/
theorem test_after_soft_reset :
    let v : BitVec 160 := ((5 : BitVec 160) <<< 152) ||| ((9 : BitVec 160) <<< 72)
    State.reset.resetSoftly.armSequencer.seq.state = .idle ∧
    State.reset.resetSoftly.openSlot.armSequencer.seq.state = .armed ∧
    ((State.reset.resetSoftly.writeStage 7 v).1.stageOf 7).n = 1 ∧
    (State.reset.resetSoftly.writeStage 7 v).2 = Answer.ok ∧
    ((State.reset.resetSoftly.openSlot.writeStage 7 v).1.stageOf 7).n = 9 ∧
    State.reset.resetSoftly.seq = Sequencer.default := by
  decide +kernel

/-! ### Trace capture -/

/-- After a soft reset, with losses counted: what an entry into RUN finds. -/
def noted : Capture :=
  { Capture.default with
    state := .stopped, note := some 9, access := { records := [], lost := 2 }, event := { records := [], lost := 3 }
    settings :=
      { TraceSettings.default with
        classes := { violation := false, guard := false, stage := false, cue := false, channel := true } } }

theorem test_met_CaptureStartsAndStops :
    capturing.capture.running = true ∧ State.reset.capture.running = false ∧ capturing.porst = false ∧
    noted.Inv := by
  decide

/-- The note and the losses enter their queues at the start (R152, R156). -/
theorem test_start_enters_note_and_gaps :
    let t := ({ State.reset with capture := noted } : State).startCapture
    t.capture.event = { records := [.channel .softReset 9, .gap .event 3 0], lost := 0 } ∧
    t.capture.access = { records := [.gap .access 2 0], lost := 0 } ∧ t.capture.note = none := by
  decide

theorem test_met_StoreIsReadAndFlushed :
    ({ State.reset with capture := { Capture.default with store := [aRecord] } } : State).capture.store = [aRecord] ∧
    State.reset.capture.store = [] ∧ capturing.capture.state = .run := by
  decide

/-- An ACCESS record of 2 units. -/
def twoUnits : Record :=
  .access
    { kind := .read, bank := 0, row := none, column := 0, lenOrder := none, autoClose := false, posted := false
      outcome := none, doubtful := false, rowless := true, cutFlag := false, untracked := none, hits := 0
      beatsSeen := 0, data := true
      beats := [({ position := 0, column := 0, data := 7, mask := none }, 0)], stamp := 0 }

theorem test_met_RecordsArePickedAndWritten_unit :
    let w : Writer := { record := twoUnits, written := 1 }
    let s : State := { State.reset with capture := { Capture.default with state := .post, postCounter := 1, writer := some w } }
    s.porst = false ∧ s.turns.unit = false ∧ s.capture.writer = some w ∧ w.record.length ≤ w.written + 1 ∧
    s.capture.postCounter ≤ 1 := by
  decide

theorem test_met_RecordsArePickedAndWritten_unit_not_last :
    let w : Writer := { record := twoUnits, written := 0 }
    let s : State := { capturing with capture := { capturing.capture with writer := some w } }
    s.capture.writer = some w ∧ w.written + 1 < w.record.length ∧ s.capture.state ≠ .post := by
  decide

theorem test_met_RecordsArePickedAndWritten_pick :
    capturing.capture.chosen = some .event ∧ (capturing.capture.queue .event).records = [aRecord] ∧
    capturing.turns.pick = false ∧ capturing.turns.unit = false ∧ capturing.capture.writer = none ∧
    fillOf capturing.capture.store ≤ 4096 ∧ aRecord.length = 1 ∧ twoUnits.length = 2 := by
  decide

/-- The record of one unit is in the store after its pick. -/
theorem test_pick_writes :
    capturing.pickTurn.capture.store = [aRecord] ∧ capturing.pickTurn.capture.writer = none := by
  decide

/-- A full store, with the mode, arbiter mode, lost count and capture state given, and one event staged. -/
def fullStore (mode : StoreMode) (arbiter : ArbiterMode) (lost : Nat) (st : CaptureState) : State :=
  { State.reset with
    capture :=
      { Capture.default with
        state := st, postCounter := 1, store := List.replicate 4096 aRecord
        event := { records := [aRecord], lost := lost }
        settings := { TraceSettings.default with storeMode := mode, arbiterMode := arbiter } } }

theorem test_full_store_holds (mode : StoreMode) (arbiter : ArbiterMode) (lost : Nat) (st : CaptureState) :
    fillOf (fullStore mode arbiter lost st).capture.store = 4096 := by
  change fillOf (List.replicate 4096 aRecord) = 4096
  decide +kernel

/-- STOP with a full store, WRAP with a full store, ROTATING, a lost count, the last unit of POST: every clause of the
pick has a state that meets it. -/
theorem test_met_RecordsArePickedAndWritten_full :
    (fullStore .stop .fixed 3 .run).capture.chosen = some .event ∧
    (fullStore .stop .fixed 3 .run).capture.running = true ∧
    (fullStore .stop .fixed 3 .run).capture.settings.storeMode = .stop ∧ 4096 - 4096 < aRecord.length ∧
    (fullStore .wrap .rotating 3 .run).capture.rotation.find?
      (fun x => !((fullStore .wrap .rotating 3 .run).capture.queue x).records.isEmpty) = some .event ∧
    (fullStore .wrap .rotating 3 .run).capture.settings.storeMode = .wrap ∧
    (fullStore .wrap .fixed 0 .post).capture.state = .post ∧
    (fullStore .wrap .fixed 0 .post).capture.postCounter ≤ 1 ∧ aRecord.length ≤ 6 := by
  decide

/-- The picked record leaves its queue, its place takes the GAP record, and the queue moves to the end. -/
theorem test_pick_leaves_a_gap :
    let s : State :=
      { capturing with
        capture :=
          { capturing.capture with
            event := { records := [aRecord], lost := 3 }
            settings := { TraceSettings.default with arbiterMode := .rotating } } }
    s.pickTurn.capture.event = { records := [.gap .event 3 0], lost := 0 } ∧
    s.pickTurn.capture.rotation = [.access, .marker, .event] := by
  decide

/-- In POST with units to go the pick writes its first unit and the counter falls by 1 (R144). -/
theorem test_pick_in_post :
    let s : State := { capturing with capture := { capturing.capture with state := .post, postCounter := 3 } }
    s.capture.running = true ∧ s.pickTurn.capture.postCounter = 2 ∧ s.pickTurn.capture.state = .post ∧
    s.pickTurn.turns.unit = true := by
  decide

/-- The captured 8-beat write of 11.5, its data 0. -/
def writeG : AccessRec :=
  { kind := .write, bank := 1, row := some 0x10002, column := 421, lenOrder := some (.eight, .linear)
    autoClose := false, posted := true, outcome := some .done, doubtful := false, rowless := false
    cutFlag := false, untracked := none, hits := 0x8001, beatsSeen := 8, data := true
    beats := (List.range 8).map fun i =>
      ({ position := i, column := 0, data := 0, mask := some 0 }, if i < 2 then 0x0F else if i < 6 then 0 else 0xF0)
    stamp := 7002 }

theorem test_captured_write_record :
    (Record.access writeG).units.take 2 =
      [[1, 6, 0, 0, 0x1B, 0x5A, 0x33, 0x40, 0x11, 0x88, 0, 2, 1, 0xA5, 0x80, 1],
       [0, 0, 0, 0, 0, 0, 0, 0, 0x0F, 0x0F, 0, 0, 0, 0, 0xF0, 0xF0]] ∧
    (Record.access writeG).units.length = 6 := by
  decide

/-- A GUARD record with both counts at their bound. -/
def guardRecord : GuardRec :=
  { window := some 15, bank := 15, row := some 3, column := some 2047, lanes := 0xFF, forced := 8, unprotected := 8
    unable := true, blind := false, blocked := false, untracked := false, locked := true, stamp := 1 }

theorem test_guard_record :
    (Record.guard guardRecord).units =
      [[3, 1, 0, 0, 0, 1, 0x8F, 0x11, 0x6F, 0, 3, 7, 0xFF, 0xFF, 0x88, 0]] := by
  decide

theorem test_met_RecordsAreWholeUnits :
    twoUnits.length = 2 ∧ twoUnits.units.length = 2 ∧ writeG.beats.length ≤ 8 ∧ writeG.beatsSeen ≤ 8 ∧
    guardRecord.forced ≤ 8 ∧ guardRecord.unprotected ≤ 8 := by
  decide

/-! ### Alerts, cue pins, timebase -/

theorem test_met_AckClearsNamedLatches : (0x0400 : BitVec 16).getLsbD 10 = true ∧ (0x03FF : BitVec 16).getLsbD 10 = false := by
  decide

theorem test_met_CuePinsAct :
    let pulse (n : Nat) := State.reset.setCue 3 { State.reset.cue 3 with function := .seqCue, remaining := n, active := true }
    let s := pulse 0
    s.porst = false ∧ (s.cue 3).active = true ∧ (s.cue 3).remaining = 0 ∧ s.turns.pins.getLsbD 3 = false ∧
    s.port.waiting = none ∧ s.tracker = [] ∧ s.seq.state ≠ .armed ∧ ((pulse 5).openSlot.cue 3).remaining = 4 ∧
    ((pulse 5).openSlot.cue 3).active = true := by
  decide

/-- A PORT IN pin is sampled once per slot (R174). -/
theorem test_pin_sampled_once :
    ((State.reset.samplePin 3 true).samplePin 3 false).pinLevel 3 = true ∧
    ((State.reset.samplePin 3 true).openSlot.samplePin 3 false).pinLevel 3 = false := by
  decide

/-- A slot other than the first in which pin 0's level has changed, with the cue class on and capture in RUN. -/
def risen : State :=
  State.setCue
    { capturing with
      turns := Turns.fresh
      capture :=
        { Capture.default with
          state := .run
          settings :=
            { TraceSettings.default with
              classes := { violation := false, guard := false, stage := false, cue := true, channel := false } } } }
    0 { State.reset.cue 0 with board := true }

theorem test_met_EdgesAreTakenAtSlotEnd :
    risen.porst = false ∧ risen.port.waiting = none ∧ risen.lastEvents.turns.firstSlot = false ∧
    risen.lastEvents.capture.settings.classes.cue = true ∧ risen.lastEvents.capture.state = .run ∧
    risen.lastEvents.capture.event.records = [] ∧ (risen.lastEvents.cue 0).lastLevel = false ∧
    risen.lastEvents.pinLevel 0 = true ∧ State.reset.lastEvents.turns.firstSlot = true := by
  decide

/-- A slot reached by advance at a multiple of 2^20, ARMED on INTERVAL, with markers on and the capture state, queue
and marker staging given. -/
def atInterval (st : CaptureState) (queue : List Occurrence) (staged : List Record) : State :=
  { armed 1 false true queue with
    now := 1048576, turns := Turns.fresh
    seq :=
      { (armed 1 false true queue).seq with
        stages := Vector.replicate 8 { Stage.default with termA := .interval } }
    capture :=
      { Capture.default with
        state := st, marker := { records := staged, lost := 0 }
        settings := { TraceSettings.default with markers := true } } }

theorem test_met_IntervalEventIsProduced :
    let s := atInterval .post [] []
    s.porst = false ∧ s.turns.interval = false ∧ s.turns.byAdvance = true ∧ s.now.toNat % 2 ^ 20 = 0 ∧
    State.reset.turns.byAdvance = false := by
  decide

/-- In POST with free places both enter; with both places taken the occurrence is overrun and the record lost; in OFF
the record is discarded. -/
theorem test_interval_event :
    let full := (atInterval .run (List.replicate 16 .interval) [aRecord]).intervalTurn
    (atInterval .post [] []).intervalTurn.seq.queue = [.interval] ∧
    (atInterval .post [] []).intervalTurn.capture.marker.records = [.mark 1048576] ∧
    full.seq.queue.length = 16 ∧ full.capture.marker.records = [aRecord] ∧ full.capture.marker.lost = 1 ∧
    full.alert.latches = 0b0110000000 ∧
    (atInterval .off [] []).intervalTurn.capture.marker.records = [] := by
  decide

/-! ### Service port -/

theorem test_met_ReadsChangeNothing :
    requestComplete [0x02, 0x03, 0x00] = false ∧ (State.reset.itemBytes 0x10 0).isSome = true := by
  decide

/-- READ STATUS and READ ITEM are complete with their last byte and not before; a frame behind busyPort is
discarded. -/
theorem test_met_ReadsChangeNothing_frame :
    requestComplete [0x03] = true ∧ requestComplete [0x01, 0x03, 0x00] = true ∧
    (∀ k, k < 3 → requestComplete ([(0x01 : Byte), 0x03, 0x00].take k) = false) ∧
    Port.ready.frame = .idle ∧ Port.ready.waiting = none ∧
    busyPort.deselect.frame = .idle ∧ busyPort.deselect.waiting = some .readStatus := by
  decide

/-- The spelled READ STATUS frame, answered within its turnaround byte: filler, the status byte, the data. -/
theorem test_status_frame :
    let sent := Port.ready.run (.select :: wireOfByte 0x03)
    let answered := sent.settle { status := .empty, data := [0xA5] }
    sent.waiting = some .readStatus ∧ sent.sdoByte = some 0xFF ∧
    (answered.run (wireOfByte 0)).sdoByte = some 0x04 ∧
    (answered.run (wireOfByte 0 ++ wireOfByte 0)).sdoByte = some 0xA5 ∧
    (answered.run (wireOfByte 0 ++ wireOfByte 0 ++ wireOfByte 0)).sdoByte = some 0xFF := by
  decide

/-- A LOCK WINDOW frame over three slots, which no row names: complete in the first, it takes effect at the end of
the second, whose pins shift its turnaround byte; SDO carries the status byte RANGE in the third. -/
theorem test_frame_in_slots :
    let frame := .select :: (wireOfByte 0x20 ++ wireOfByte 0x10)
    let second := ({ State.reset with wires := [frame, wireOfByte 0, [.clock false]] } : State).closeSlot.openSlot
    let third := second.closeSlot.openSlot
    second.port.waiting = some (.lockWindow 0x10) ∧ second.sdo = some true ∧
    third.port.waiting = none ∧ third.port.sdoByte = some 0x03 ∧ third.sdo = some false ∧
    third.wires = [[.clock false]] ∧ third.takeWires.port.bits = [false] := by
  decide +kernel

/-- Spelled by a frame and named by no row, LOCK WINDOW locks its window at the end of the slot after its last
bit; with its row in that slot it does so there, and once. -/
theorem test_waiting_request_takes_effect :
    let waits (s : State) : State := { s with port := { Port.ready with waiting := some (.lockWindow 3) } }
    (waits State.reset).lastEvents.windows[(3 : Fin 16)].locked = true ∧
    (waits State.reset).lastEvents.port.waiting = none ∧
    (waits State.reset).admits (.lockWindow 3) = true ∧ (waits State.reset).admits (.lockWindow 4) = false ∧
    ((waits State.reset).request (.lockWindow 3)).serveWaiting =
      (waits State.reset).request (.lockWindow 3) := by
  decide +kernel

theorem test_met_SlotPassesAndForwards_request :
    busy.porst = false ∧ busy.port.waiting = some .readStatus ∧ requestOf [0x03] = some .readStatus := by
  decide

theorem test_met_SlotPassesAndForwards_wires :
    ({ State.reset with wires := [[.select], []] } : State).wires = [.select] :: [[]] ∧
    State.reset.wires = [] := by
  decide

/-- Bytes are read as the request they are (11.1). -/
theorem test_requests_are_read :
    requestOf [0x05, 0x02, 0x01] = some (.ack 0x0201) ∧ requestOf [0x28] = some .clearCounts ∧
    requestOf [0x29] = some .clearViolations ∧ requestOf [0x77] = some (.unknownRequest 0x77) ∧
    requestOf [0x02, 0x01, 0x03, 0x01] = some (.writeBlindPolicy 1) ∧
    requestOf [0x02, 0x09, 0x00] = some (.writeItem 0x09 0x00 []) ∧ requestOf [0x01, 0x03] = none ∧
    (requestBytes (.ack 0x0201)) = some [0x05, 0x02, 0x01] ∧ (Instr.ack 0x0201).wf = true := by
  decide

theorem test_met_PlainWritesAct :
    oneLocked.porst = false ∧ (flying 3 [posted .read none]).tracker ≠ [] ∧ State.reset.tracker = [] ∧
    (21 : Byte).toNat < 22 ∧ (11 : Byte).toNat < 22 := by
  decide

theorem test_met_WindowWriteActs :
    (15 : Byte).toNat < 16 ∧ oneLocked.windows[(15 : Byte).toNat].locked = true ∧
    (15 : Byte).toNat < groupIndices 0x03 := by
  decide

/-- Value bytes that a window takes, and bytes it refuses: access kinds 0 is no code. -/
theorem test_met_WindowWriteActs_values :
    (windowOf ((6 : BitVec 280) <<< 272)).isSome = true && (windowOf 0).isNone = true := by
  decide +kernel

/-- Range checks at their bounds: low above high, condition kind 8, the top address. -/
theorem test_window_ranges :
    let v (low high : BitVec 280) : BitVec 280 := ((6 : BitVec 280) <<< 272) ||| (low <<< 232) ||| (high <<< 192)
    (windowOf (v 1 0)).isNone && (windowOf (v 0 (BitVec.twoPow 280 35))).isNone &&
      (windowOf (v 0 (BitVec.twoPow 280 35 - 1))).isSome &&
      (windowOf (v 0 0 ||| ((0x88 : BitVec 280) <<< 184))).isNone &&
      (windowOf (v 0 0 ||| ((0x87 : BitVec 280) <<< 184))).isSome := by
  decide +kernel

theorem test_met_StageTraceAndCueWritesAct :
    (7 : Byte).toNat < 8 ∧ (3 : Byte).toNat < 4 ∧ (armed 1 false true []).seq.state = .armed ∧
    (stageFrom 0).isNone = true ∧ (cueOf 1).isSome = true ∧ (cueOf 0).isNone = true := by
  decide

/-- A stage with terms ALWAYS and WINDOW-HIT and N 1 is accepted; a level as term A, AND-LEVEL without a level and a
next stage of 8 are refused. -/
theorem test_stage_ranges :
    let v (a join b n next : BitVec 160) : BitVec 160 :=
      (a <<< 152) ||| (join <<< 120) ||| (b <<< 112) ||| (n <<< 72) ||| (next <<< 40)
    (stageFrom (v 5 0 0 1 7)).isSome && (stageFrom (v 5 1 6 1 0)).isSome && (stageFrom (v 6 0 0 1 0)).isNone &&
      (stageFrom (v 5 1 0 1 0)).isNone && (stageFrom (v 5 2 6 1 0)).isNone &&
      (stageFrom (v 5 0 0 0 0)).isNone && (stageFrom (v 5 0 0 1 8)).isNone := by
  decide +kernel

theorem test_met_WriteItemReachesItsGroup :
    writeBytes 0x08 ≤ [(0 : Byte), 0, 0, 0, 0, 0, 0].length ∧ (0 : Byte).toNat < groupIndices 0x08 ∧
    [(0 : Byte)].length < writeBytes 0x08 ∧ groupIndices 0x08 ≤ (1 : Byte).toNat := by
  decide

/-- The highest index of each writable group has a value. -/
theorem test_met_ItemsReadBackAsWritten_items :
    let has (g i : Byte) : Bool := (State.reset.itemBytes g i).isSome
    (has 1 3 && has 2 21 && has 3 15 && has 4 7 && has 5 6 && has 6 0 && has 7 3 && has 8 0) = true := by
  decide +kernel

theorem test_met_ItemsReadBackAsWritten :
    Window.default.Inv ∧ Stage.default.Inv ∧ (Cue.default false).Inv ∧ ruleInRange 11 4 32 = true ∧
    ruleInRange 21 0 0 = true := by
  decide

end Sys2Proof.Tests
end

section
/-! SUPPORT. What the arrival of a command in LIVE leaves of the state, said once: the hand-over reaches the
sequencer, trace capture, the alert unit and the merge counter alone (`OfferStep`); before it each block takes the
command against the state found (R65). -/
namespace Sys2Proof.Machine

/-! ### What the hand-over of an event's offers reaches -/

/-- Only the sequencer, trace capture, the alert unit and the model's counter of free merges differ. -/
def State.OfferStep (s t : State) : Prop :=
  t = { s with seq := t.seq, capture := t.capture, alert := t.alert, free := t.free }

theorem State.OfferStep.refl (s : State) : s.OfferStep s := rfl

theorem State.OfferStep.trans {s t u : State} (h : s.OfferStep t) (k : t.OfferStep u) : s.OfferStep u := by
  unfold State.OfferStep at h k ⊢
  rw [k, h]

theorem State.CaptureStep.offer {s t : State} (h : s.CaptureStep t) : s.OfferStep t := by
  unfold State.OfferStep
  rw [h.1]

theorem State.join_offerStep (s : State) (a b : Offers) : s.OfferStep (s.join a b).1 := rfl

theorem State.offerOccurrence_offerStep (s : State) (o : Occurrence) : s.OfferStep (s.offerOccurrence o) := by
  unfold State.offerOccurrence
  split
  · split
    · rfl
    · exact (s.setLatch_step _).offer
  · exact .refl s

theorem State.offerOccurrences_offerStep (s : State) (os : List Occurrence) :
    s.OfferStep (s.offerOccurrences os) := by
  induction os generalizing s with
  | nil => exact .refl s
  | cons o os ih => exact (s.offerOccurrence_offerStep o).trans (ih _)

theorem State.handOut_offerStep (s : State) (o : Offers) : s.OfferStep (s.handOut o) :=
  (s.offerOccurrences_offerStep _).trans (State.offerEvents_step _ _).offer

/-- The hand-over leaves the shadow, the tracker and the checker as they are. -/
theorem State.OfferStep.kept {s t : State} (h : s.OfferStep t) :
    s.SameShadow t ∧ s.SameTracker t ∧ t.checker = s.checker := by
  rw [h]
  exact ⟨⟨rfl, rfl, rfl⟩, ⟨rfl, rfl, rfl⟩, rfl⟩

/-! ### The checker's part of an arrival (R65, R81, R82) -/

/-- Only the checker and the alert latches differ. -/
def State.CheckerStep (s t : State) : Prop := t = { s with checker := t.checker, alert := t.alert }

theorem State.CheckerStep.refl (s : State) : s.CheckerStep s := Eq.refl s

theorem State.CheckerStep.trans {s t u : State} (h : s.CheckerStep t) (k : t.CheckerStep u) :
    s.CheckerStep u := by
  unfold State.CheckerStep at h k ⊢
  rw [k, h]

theorem State.setChecker_checkerStep (s : State) (c : Checker) : s.CheckerStep (s.setChecker c) :=
  Eq.refl (s.setChecker c)

theorem State.setLatch_checkerStep (s : State) (c : Cause) : s.CheckerStep (s.setLatch c) :=
  Eq.refl (s.setLatch c)

theorem State.violate_checkerStep (s : State) (c : Cmd) (rules : RuleSet) :
    s.CheckerStep (s.violate c rules).1 := by
  unfold State.violate
  split
  · exact .refl s
  · exact (s.setChecker_checkerStep _).trans (State.setLatch_checkerStep _ _)

/-- The state after the checker has judged the command and updated its own state: the tracker and the shadow
take the command in this state (R65). -/
def State.judged (s : State) (c : Cmd) : State := (s.violate c (brokenRules s c)).1.checkerTakes s c

theorem State.judged_checkerStep (s : State) (c : Cmd) : s.CheckerStep (s.judged c) :=
  (s.violate_checkerStep c _).trans (State.setChecker_checkerStep _ _)

theorem State.judged_rolling (s : State) (c : Cmd) : (s.judged c).checker.rolling = rollingAfter s c := rfl

/-! ### A command other than READ and WRITE, taken in LIVE -/

/-- A command is taken by the checker, the tracker and the shadow in turn; what follows is the hand-over. -/
theorem State.takeCommand_eq (s : State) (c : Cmd) :
    s.takeCommand c =
      let tracked := (s.judged c).trackArrival c
      let both := (tracked.1.shadow c).join (s.violate c (brokenRules s c)).2 tracked.2
      let all := both.1.join both.2 (sleepOffers s c)
      all.1.handOut all.2 := rfl

theorem State.takeCommand_offerStep (s : State) (c : Cmd) :
    (((s.judged c).trackArrival c).1.shadow c).OfferStep (s.takeCommand c) := by
  rw [State.takeCommand_eq]
  exact ((State.join_offerStep _ _ _).trans (State.join_offerStep _ _ _)).trans (State.handOut_offerStep _ _)

/-- Without READ and WRITE the tracker only marks the POSTED entries reached (R47). -/
theorem State.trackArrival_notAccess (s : State) (c : Cmd) (hc : ∀ k b col ac, c ≠ .access k b col ac) :
    s.trackArrival c = (s.markDoubtful c, Offers.none) := by
  cases c with
  | access k b col ac => exact absurd rfl (hc k b col ac)
  | _ => rfl

/-- In LIVE the entries reached are marked in the state that the checker leaves. -/
theorem State.markDoubtful_judged (s : State) (c : Cmd) (hl : s.chan = .live) :
    (s.judged c).markDoubtful c =
      { s with
        checker := (s.judged c).checker, alert := (s.judged c).alert
        tracker := s.tracker.map fun e => if reachesPosted c e then { e with doubtful := true } else e } := by
  have hj := s.judged_checkerStep c
  generalize s.judged c = j at hj ⊢
  rw [hj]
  exact if_pos hl

theorem State.shadow_live (s : State) (c : Cmd) (hl : s.chan = .live) : s.shadow c = s.shadowLive c := by
  simp [State.shadow, hl]

/-- What the shadow takes in LIVE does not reach the tracker. -/
theorem State.shadowLive_tracker (s : State) (c : Cmd) : s.SameTracker (s.shadowLive c) := by
  cases c <;> simp [State.SameTracker, State.shadowLive]

/-- Without READ and WRITE the shadow does not read what the checker and the tracker keep. -/
theorem State.shadowLive_frame (s : State) (c : Cmd) (hc : ∀ k b col ac, c ≠ .access k b col ac)
    (checker : Checker) (alert : Alert) (tracker : List Entry) :
    State.shadowLive { s with checker := checker, alert := alert, tracker := tracker } c =
      { s.shadowLive c with checker := checker, alert := alert, tracker := tracker } := by
  cases c with
  | access k b col ac => exact absurd rfl (hc k b col ac)
  | _ => rfl

/-- The pins' sample leaves what the shadow reads and takes (R1). -/
theorem State.shadowLive_sampleCommand (s : State) (w : ChannelWord) (c : Cmd) :
    (s.sampleCommand w).shadowLive c = (s.shadowLive c).sampleCommand w := by
  cases c <;> rfl

/-- What a command other than READ and WRITE leaves when it is taken in LIVE: the shadow takes it as it stands
(R20 to R22, R30, R31), the rolling open list takes an OPEN's stamp (R74), and of the tracker the POSTED entries
reached are marked (R47). -/
structure State.TakenLive (s t : State) (c : Cmd) : Prop where
  shadow : (s.shadowLive c).SameShadow t
  rolling : t.checker.rolling = rollingAfter s c
  waiting : t.waiting = s.waiting
  nextNumber : t.nextNumber = s.nextNumber
  tracker : t.tracker = s.tracker.map fun e => if reachesPosted c e then { e with doubtful := true } else e

theorem State.TakenLive.bank {s t : State} {c : Cmd} (h : s.TakenLive t c) (b : BankNo) :
    t.bank b = (s.shadowLive c).bank b := by
  obtain ⟨-, hbanks, -⟩ := h.shadow
  simp only [State.bank, hbanks]

theorem State.takeCommand_takenLive (s : State) (c : Cmd) (hl : s.chan = .live)
    (hc : ∀ k b col ac, c ≠ .access k b col ac) : s.TakenLive (s.takeCommand c) c := by
  have h := s.takeCommand_offerStep c
  rw [State.trackArrival_notAccess _ c hc, State.markDoubtful_judged s c hl, State.shadow_live _ c (by exact hl),
    State.shadowLive_frame s c hc] at h
  obtain ⟨hshadow, ⟨htracker, hwaiting, hnumber⟩, hchecker⟩ := h.kept
  obtain ⟨-, kwaiting, knumber⟩ := s.shadowLive_tracker c
  exact ⟨hshadow, by rw [hchecker, s.judged_rolling c], hwaiting.trans kwaiting, hnumber.trans knumber, htracker⟩

/-- The same of its arrival on pins that still listen (R1). -/
theorem State.arrive_takenLive (s : State) (c : Cmd) (hs : s.Listens) (hl : s.chan = .live)
    (hc : ∀ k b col ac, c ≠ .access k b col ac) : s.TakenLive (s.arrive c) c := by
  obtain ⟨hp, ht⟩ := hs
  rw [s.arrive_up c hp ht]
  obtain ⟨hshadow, hrolling, hwaiting, hnumber, htracker⟩ :=
    (s.sampleCommand (.command c)).takeCommand_takenLive c hl hc
  rw [State.shadowLive_sampleCommand] at hshadow
  exact ⟨hshadow, hrolling, hwaiting, hnumber, htracker⟩

/-- The row of each of the nine kinds is the arrival of its command. -/
theorem exec_arrival (c : Cmd) (s : State) : exec c.arrival s = .next (s.arrive c) := by
  cases c with
  | access kind b col ac => cases kind <;> rfl
  | _ => rfl

/-! ### OPEN, CLOSE and CLOSE ALL -/

/-- Where no row is held, an OPEN opens the bank on its row (R20). -/
theorem Bank.afterOpen_of_free (e : Bank) (row : Row) (now : Slot) (h : e.row = none) :
    e.afterOpen row now = { e with state := .opened row, openStamp := some now } := by
  simp [Bank.afterOpen, Bank.holdsRow, h]

/-- Where a row is held, an OPEN leaves the bank UNKNOWN (R20). -/
theorem Bank.afterOpen_of_row (e : Bank) (held row : Row) (now : Slot) (h : e.row = some held) :
    e.afterOpen row now = { e with state := .unknown, openStamp := some now } := by
  simp [Bank.afterOpen, Bank.holdsRow, h]

theorem reachesPosted_openBank (b : BankNo) (r : Row) (e : Entry) :
    reachesPosted (.openBank b r) e = true ↔ e.phase = .posted ∧ e.bank = b := by
  unfold reachesPosted
  simp [Entry.isPosted]

theorem reachesPosted_closeBank (b : BankNo) (e : Entry) :
    reachesPosted (.closeBank b) e = true ↔ e.phase = .posted ∧ e.bank = b := by
  unfold reachesPosted
  simp [Entry.isPosted]

theorem reachesPosted_closeAll (e : Entry) : reachesPosted .closeAll e = true ↔ e.phase = .posted := by
  unfold reachesPosted
  simp [Entry.isPosted]

/-- The stamp appended is the newest of the rolling open list (R74). -/
theorem rollingAppend_getLast? (l : List Slot) (a : Slot) : (rollingAppend l a).getLast? = some a := by
  simp [rollingAppend]

theorem rollingAfter_openBank (s : State) (b : BankNo) (r : Row) (hl : s.chan = .live) :
    rollingAfter s (.openBank b r) = rollingAppend s.rollingKept s.now := by
  simp [rollingAfter, hl]

/-- Settles O13: the bank entry by the four states it can be in, the rest from what an arrival in LIVE leaves. -/
theorem openActs : Obligations.OpenActs := by
  unfold Obligations.OpenActs
  intro s b r hs hl
  have h := s.arrive_takenLive (.openBank b r) hs hl nofun
  obtain ⟨hchan, -, hmodes⟩ := h.shadow
  refine ⟨_, exec_arrival (.openBank b r) s, ?_, fun b' hb => ?_, ?_, hmodes, hchan.trans hl, h.waiting,
    h.nextNumber, ?_⟩
  · rw [h.bank b, State.shadowLive, State.bank_setBank_same]
    cases hst : (s.bank b).state with
    | unknown => exact Bank.afterOpen_of_free _ _ _ (by simp [Bank.row, hst])
    | closed => exact Bank.afterOpen_of_free _ _ _ (by simp [Bank.row, hst])
    | opened held => exact Bank.afterOpen_of_row _ held _ _ (by simp [Bank.row, hst])
    | closing held stamp => exact Bank.afterOpen_of_row _ held _ _ (by simp [Bank.row, hst])
  · rw [h.bank b', State.shadowLive, State.bank_setBank_other _ _ hb]
  · rw [h.rolling, rollingAfter_openBank s b r hl, rollingAppend_getLast?]
  · simp only [h.tracker, reachesPosted_openBank]

/-- Settles O14: CLOSE as an update of its bank, CLOSE ALL as the same update of every bank. -/
theorem closeActs : Obligations.CloseActs := by
  unfold Obligations.CloseActs
  intro s hs hl
  refine ⟨fun b => ?closeBank, ?closeAll⟩
  case closeBank =>
    have h := s.arrive_takenLive (.closeBank b) hs hl nofun
    obtain ⟨hchan, -, hmodes⟩ := h.shadow
    refine ⟨_, exec_arrival (.closeBank b) s, ?_, fun b' hb => ?_, hmodes, hchan.trans hl, h.rolling, h.waiting,
      h.nextNumber, ?_⟩
    · rw [h.bank b, State.shadowLive, State.bank_setBank_same, Bank.afterClose]
    · rw [h.bank b', State.shadowLive, State.bank_setBank_other _ _ hb]
    · simp only [h.tracker, reachesPosted_closeBank]
  case closeAll =>
    have h := s.arrive_takenLive .closeAll hs hl nofun
    obtain ⟨hchan, -, hmodes⟩ := h.shadow
    refine ⟨_, exec_arrival .closeAll s, fun b => ?_, hmodes, hchan.trans hl, h.rolling, h.waiting,
      h.nextNumber, ?_⟩
    · rw [h.bank b, State.shadowLive, State.bank_mapBanks, Bank.afterClose]
    · simp only [h.tracker, reachesPosted_closeAll]

end Sys2Proof.Machine
end

section
/-! SUPPORT. The checker at an arrival and at a channel reset: of all that follows the judgement nothing reaches the
checker again (R65); a rule's enable, C9 to C11 over the pending measure (R72), and C12 over the rolling open list
(R74). -/
namespace Sys2Proof.Machine

/-! ### What leaves the checker as it is -/

theorem State.EventStep.checker {s t : State} (h : s.EventStep t) : t.checker = s.checker := by
  rw [h.1]

theorem State.joinList_checker (s : State) (e : Entry) : (s.joinList e).1.checker = s.checker := by
  unfold State.joinList
  simp only
  split
  · rfl
  · exact (State.takeEffect_step _ _).checker

theorem State.markDoubtful_checker (s : State) (c : Cmd) : (s.markDoubtful c).checker = s.checker := by
  unfold State.markDoubtful
  split <;> rfl

theorem State.trackArrival_checker (s : State) (c : Cmd) : (s.trackArrival c).1.checker = s.checker := by
  unfold State.trackArrival
  split
  · split
    · exact (s.handUntracked_step _).checker
    · exact s.joinList_checker _
    · rfl
  · exact s.markDoubtful_checker c

theorem State.shadowLive_checker (s : State) (c : Cmd) : (s.shadowLive c).checker = s.checker := by
  cases c <;> rfl

theorem State.shadow_checker (s : State) (c : Cmd) : (s.shadow c).checker = s.checker := by
  unfold State.shadow
  split
  · exact s.shadowLive_checker c
  · split <;> rfl
  · rfl

/-- Once the checker has judged the command, the tracker, the shadow and the hand-over leave it as it is (R65). -/
theorem State.takeCommand_checker (s : State) (c : Cmd) : (s.takeCommand c).checker = (s.judged c).checker := by
  obtain ⟨-, -, hand⟩ := (s.takeCommand_offerStep c).kept
  rw [hand, State.shadow_checker, State.trackArrival_checker]

theorem State.judged_measure (s : State) (c : Cmd) : (s.judged c).checker.measure = measureAfter s c := rfl

/-- Whatever was pending, an arrival leaves the measure that its own command sets, or none (R72). -/
theorem State.arrive_measure (s : State) (c : Cmd) (hs : s.Listens) :
    (s.arrive c).checker.measure = measureAfter s c := by
  obtain ⟨hp, ht⟩ := hs
  rw [s.arrive_up c hp ht, State.takeCommand_checker, State.judged_measure]
  rfl

/-- A memory reset removes the read data end stamp, the pending measure and the rolling open list (R67, R72, R73). -/
theorem State.assertReset_checker (s : State) : s.assertReset.checker = s.checker.forgetSpacing := by
  have h (t : State) (r : Offers) (ht : t.checker = s.checker.forgetSpacing) :
      (let (u, off) := t.abandonAll
       let (v, both) := u.join off r
       v.handOut both).checker = s.checker.forgetSpacing :=
    (t.abandonAll_step.trans ((State.join_step _ t.abandonAll.2 r).trans (State.handOut_step _ _))).checker.trans ht
  exact h _ _ rfl

/-- MRST's assertion takes effect once in a slot, while it was released (R8). -/
theorem exec_memoryResetAssertion (s : State) (hp : s.porst = false) (hm : s.fwd.mrst = false)
    (ht : s.turns.mrst = false) : exec .memoryResetAssertion s = .next s.assertReset := by
  change execMemoryResetAssertion s = _
  simp [execMemoryResetAssertion, hp, hm, ht]

/-! ### Rules judged one by one (R63, R65) -/

theorem State.ruleOn_eq (s : State) (n : Fin 22) : s.ruleOn n.val = (s.rule n).enabled := by
  simp [State.ruleOn, State.rule]

/-- A rule that is judged in the channel state found is broken when it is enabled and its condition holds. -/
theorem brokenRules_iff_of_judged (s : State) (c : Cmd) (n : Fin 22) (hj : judgedIn s.chan n.val = true) :
    (brokenRules s c).getLsbD n.val = true ↔
      (s.rule n).enabled = true ∧ breaksRule s c n.val = true := by
  rw [brokenRules_getLsbD, hj, State.ruleOn_eq, Bool.and_true, Bool.and_eq_true]

/-- C9, C10 and C11 are judged in every channel state (R65, R72). -/
theorem judgedIn_measure (chan : ChanState) (n : Fin 3) : judgedIn chan (8 + n.val) = true := by
  cases chan <;> revert n <;> decide

theorem tooClose_iff (a b : Slot) (value : Byte) :
    tooClose a b value = true ↔ (b - a).toInt < (value.toNat : Int) := by
  simp [tooClose, spacing]

/-- The rule of a pending measure is broken when the measure is of its kind and the arrival comes too soon (R72). -/
theorem breaksMeasure_iff (s : State) (kind : MeasureKind) (n : Fin 22) :
    breaksMeasure s kind n = true ↔
      ∃ k stamp, s.checker.measure = some (k, stamp) ∧ k = kind ∧
        (s.now - stamp).toInt < ((s.rule n).value.toNat : Int) := by
  unfold breaksMeasure
  cases s.checker.measure with
  | none => simp
  | some m =>
    obtain ⟨k, stamp⟩ := m
    simp [tooClose_iff]

theorem brokenRules_measure_iff (s : State) (c : Cmd) (kind : MeasureKind) (n : Fin 22)
    (hj : judgedIn s.chan n.val = true) (hb : breaksRule s c n.val = breaksMeasure s kind n) :
    (brokenRules s c).getLsbD n.val = true ↔
      (s.rule n).enabled = true ∧
      ∃ k stamp, s.checker.measure = some (k, stamp) ∧ k = kind ∧
        (s.now - stamp).toInt < ((s.rule n).value.toNat : Int) := by
  rw [brokenRules_iff_of_judged s c n hj, hb, breaksMeasure_iff]

/-! ### The rolling open list (R74) -/

/-- The removals of R74, with W at the width of a slot value. -/
theorem State.rollingKept_eq (s : State) :
    s.rollingKept = s.checker.rolling.filter fun x =>
      ¬ (0 < (s.now - (s.rule 11).value2.setWidth 48 + 1 - x).toInt) := by
  unfold State.rollingKept
  rw [BitVec.ofNat_toNat]
  exact List.filter_congr fun _ _ => decide_not.symm

/-- Of a full list the oldest stamp goes first (R74). -/
theorem rollingAppend_eq (l : List Slot) (a : Slot) :
    rollingAppend l a = (if 8 ≤ l.length then l.tail else l) ++ [a] := by
  simp only [rollingAppend, Config.rollingPlaces, List.drop_one]

/-- C12 at an OPEN: K or more stamps remain (R74). -/
theorem breaksRule_openWindow (s : State) (b : BankNo) (r : Row) :
    breaksRule s (.openBank b r) 11 = true ↔ (s.rule 11).value.toNat ≤ s.rollingKept.length := by
  simp [breaksRule, breaksOpenWindow]

/-! ### The pending measure and the rolling open list -/

/-- Settles O21: C9 to C11 each by the kind it judges, the measure left by `State.arrive_measure`, and the channel
reset by `State.assertReset_checker`. -/
theorem nextCommandIsMeasured : Obligations.NextCommandIsMeasured := by
  unfold Obligations.NextCommandIsMeasured
  refine ⟨fun s c hs => ⟨fun n => ?judged, _, exec_arrival c s, s.arrive_measure c hs⟩, fun s hp hm ht => ?reset⟩
  case judged =>
    match n with
    | 0 => exact brokenRules_measure_iff s c .refresh 8 (judgedIn_measure s.chan 0) rfl
    | 1 => exact brokenRules_measure_iff s c .modeLoad 9 (judgedIn_measure s.chan 1) rfl
    | 2 => exact brokenRules_measure_iff s c .sleepExit 10 (judgedIn_measure s.chan 2) rfl
  case reset =>
    refine ⟨_, exec_memoryResetAssertion s hp hm ht, ?_⟩
    rw [State.assertReset_checker]
    rfl

/-- Settles O22: C12 judges, and the OPEN's stamp joins, the list that the removals leave. -/
theorem openWindowRolls : Obligations.OpenWindowRolls := by
  unfold Obligations.OpenWindowRolls
  intro s b r hs hl kept
  have hkept : s.rollingKept = kept := s.rollingKept_eq
  refine ⟨?judged, _, exec_arrival (.openBank b r) s, ?appended⟩
  case judged =>
    rw [← hkept, ← breaksRule_openWindow s b r]
    exact brokenRules_iff_of_judged s _ 11 (by rw [hl]; rfl)
  case appended =>
    rw [(s.arrive_takenLive (.openBank b r) hs hl nofun).rolling, rollingAfter_openBank s b r hl, rollingAppend_eq,
      hkept]

end Sys2Proof.Machine
end

section
/-! SUPPORT. What every command leaves of a LOCKED window, said once (R116): an operation either does not reach the
windows at all, or what it changes of a LOCKED one is no field and no lock state (`LockStep`). -/
namespace Sys2Proof.Machine

/-- Every window LOCKED before is LOCKED after, with the same fields. -/
def State.LockStep (s t : State) : Prop :=
  ∀ k : Fin 16, s.windows[k].locked = true →
    t.windows[k].locked = true ∧ t.windows[k].fields = s.windows[k].fields

theorem State.LockStep.of_windows {s t : State} (h : t.windows = s.windows) : s.LockStep t :=
  fun k hk => by rw [h]; exact ⟨hk, rfl⟩

theorem State.LockStep.refl (s : State) : s.LockStep s := .of_windows rfl

theorem State.LockStep.trans {s t u : State} (h : s.LockStep t) (k : t.LockStep u) : s.LockStep u := fun i hi =>
  have ⟨hlocked, hfields⟩ := h i hi
  have ⟨klocked, kfields⟩ := k i hlocked
  ⟨klocked, kfields.trans hfields⟩

/-- The part's own events keep what is programmed, the windows among it. -/
theorem State.EventStep.lockStep {s t : State} (h : s.EventStep t) : s.LockStep t := fun k hk =>
  have ⟨_, _, _, hwindows, _⟩ := h.2
  ⟨(hwindows k).2.trans hk, (hwindows k).1⟩

theorem State.OfferStep.windows {s t : State} (h : s.OfferStep t) : t.windows = s.windows := by rw [h]

theorem State.CheckerStep.windows {s t : State} (h : s.CheckerStep t) : t.windows = s.windows := by rw [h]

/-! ### Arrivals and channel resets -/

theorem State.joinList_lockStep (s : State) (e : Entry) : s.LockStep (s.joinList e).1 := by
  have joined : s.LockStep { s with tracker := s.tracker ++ [e], nextNumber := s.nextNumber + 1 } :=
    .of_windows rfl
  unfold State.joinList
  simp only
  split
  · exact joined
  · exact joined.trans (State.takeEffect_step _ _).lockStep

theorem State.markDoubtful_windows (s : State) (c : Cmd) : (s.markDoubtful c).windows = s.windows := by
  unfold State.markDoubtful
  split <;> rfl

theorem State.trackArrival_lockStep (s : State) (c : Cmd) : s.LockStep (s.trackArrival c).1 := by
  unfold State.trackArrival
  split
  · split
    · exact (s.handUntracked_step _).lockStep
    · exact s.joinList_lockStep _
    · exact .refl s
  · exact .of_windows (s.markDoubtful_windows c)

theorem State.shadowLive_windows (s : State) (c : Cmd) : (s.shadowLive c).windows = s.windows := by
  cases c <;> rfl

theorem State.shadow_windows (s : State) (c : Cmd) : (s.shadow c).windows = s.windows := by
  unfold State.shadow
  split
  · exact s.shadowLive_windows c
  · split <;> rfl
  · rfl

theorem State.takeCommand_lockStep (s : State) (c : Cmd) : s.LockStep (s.takeCommand c) :=
  have judged : s.LockStep (s.judged c) := .of_windows (s.judged_checkerStep c).windows
  have shadowed := State.LockStep.of_windows (State.shadow_windows ((s.judged c).trackArrival c).1 c)
  have handed := State.LockStep.of_windows (s.takeCommand_offerStep c).windows
  ((judged.trans (State.trackArrival_lockStep _ c)).trans shadowed).trans handed

theorem State.arrive_lockStep (s : State) (c : Cmd) : s.LockStep (s.arrive c) := by
  unfold State.arrive
  split
  · exact .refl s
  · have sampled : s.LockStep (s.sampleCommand (.command c)) := .of_windows rfl
    exact sampled.trans (State.takeCommand_lockStep _ c)

/-- The state after every entry is abandoned and the event's record is handed out with what that offers, as in a
memory reset and in a SHADOW FORGET (R32, R36). -/
def State.abandonWith (s : State) (o : Offers) : State :=
  let (s1, off) := s.abandonAll
  let (s2, off') := s1.join off o
  s2.handOut off'

theorem State.abandonWith_step (s : State) (o : Offers) : s.EventStep (s.abandonWith o) :=
  (s.abandonAll_step.trans (State.join_step _ s.abandonAll.2 o)).trans (State.handOut_step _ _)

theorem State.abandonWith_lockStep {s t : State} (o : Offers) (h : t.windows = s.windows) :
    s.LockStep (t.abandonWith o) :=
  (State.LockStep.of_windows h).trans (t.abandonWith_step o).lockStep

theorem State.assertReset_lockStep (s : State) : s.LockStep s.assertReset :=
  State.abandonWith_lockStep _ rfl

theorem State.forgetShadow_lockStep (s : State) : s.LockStep s.forgetShadow :=
  State.abandonWith_lockStep _ rfl

theorem State.releaseReset_lockStep (s : State) : s.LockStep s.releaseReset := by
  have offered (t : State) (r : Record) (h : t.windows = s.windows) : s.LockStep (t.offerEvent r) :=
    (State.LockStep.of_windows h).trans (t.offerEvent_step r).event.lockStep
  exact offered _ _ rfl

/-! ### Beats and forwarding -/

theorem State.takeBack_lockStep (s : State) : s.LockStep s.takeBack :=
  .of_windows (by rw [s.takeBack_eq])

theorem State.receiveWrite_lockStep (s : State) (b0 b1 : WriteBeat) : s.LockStep (s.receiveWrite b0 b1) := by
  unfold State.receiveWrite
  split <;> exact .of_windows rfl

theorem State.receiveRead_lockStep (s : State) (d0 d1 : BeatData) : s.LockStep (s.receiveRead d0 d1) := by
  unfold State.receiveRead
  simp only
  split <;> exact .of_windows rfl

theorem State.closeWaiting_lockStep (s : State) (number : Nat) : s.LockStep (s.closeWaiting number) := by
  unfold State.closeWaiting
  split
  · exact .refl s
  · split
    · exact .refl s
    · have removed := State.EventStep.of_waiting s (s.waiting.filter fun x => x.number != number)
      exact ((removed.trans (State.closeAccount_step _ _).event).trans (State.handOut_step _ _)).lockStep

theorem State.forwardWrite_lockStep (s : State) : s.LockStep s.forwardWrite := by
  have closed (t : State) (number : Nat) (h : t.windows = s.windows) : s.LockStep (t.closeWaiting number) :=
    (State.LockStep.of_windows h).trans (t.closeWaiting_lockStep number)
  unfold State.forwardWrite
  split
  · exact .refl s
  · simp only
    split
    · exact .of_windows rfl
    · exact closed _ _ rfl

theorem State.forwardRead_windows (s : State) : s.forwardRead.windows = s.windows := by
  unfold State.forwardRead
  split <;> rfl

theorem State.forwardCommand_windows (s : State) : s.forwardCommand.windows = s.windows := by
  unfold State.forwardCommand
  split <;> rfl

theorem State.completeAutoClose_windows (s : State) (b : BankNo) :
    (s.completeAutoClose b).windows = s.windows := by
  unfold State.completeAutoClose
  split <;> rfl

/-! ### Writes of items (R189) -/

/-- A write of WINDOW is refused, or rewrites a window that is not LOCKED (R90). -/
theorem State.writeWindow_cases (s : State) (i : Byte) (v : BitVec 280) :
    (s.writeWindow i v).1 = s ∨
    ∃ k f, s.windows[k].locked = false ∧ (s.writeWindow i v).1 = s.rewriteWindow k f := by
  unfold State.writeWindow
  split
  · next hi =>
    split
    · exact .inl rfl
    · next hl =>
      split
      · next f _ => exact .inr ⟨⟨i.toNat, hi⟩, f, Bool.eq_false_iff.mpr hl, rfl⟩
      · exact .inl rfl
  · exact .inl rfl

theorem State.rewriteWindow_other (s : State) {k j : Fin 16} (f : WindowFields) (h : j ≠ k) :
    (s.rewriteWindow k f).windows[j] = s.windows[j] :=
  Vector.getElem_set_ne k.isLt j.isLt fun e => h (Fin.ext e.symm)

theorem State.writeWindow_lockStep (s : State) (i : Byte) (v : BitVec 280) :
    s.LockStep (s.writeWindow i v).1 := by
  obtain h | ⟨k, f, hk, h⟩ := s.writeWindow_cases i v
  · rw [h]; exact .refl s
  · rw [h]
    intro j hj
    have hne : j ≠ k := fun e => by rw [e, hk] at hj; exact Bool.false_ne_true hj
    rw [s.rewriteWindow_other f hne]
    exact ⟨hj, rfl⟩

/-- A write of a LOCKED window is refused with LOCKED (R90). -/
theorem State.writeWindow_locked (s : State) (k : Fin 16) (v : BitVec 280) (h : s.windows[k].locked = true) :
    s.writeWindow (BitVec.ofNat 8 k.val) v = (s, Answer.refuse .locked) := by
  have hk : (BitVec.ofNat 8 k.val).toNat = k.val := by simp; omega
  have hlocked : (s.window ⟨(BitVec.ofNat 8 k.val).toNat, by omega⟩).locked = true := by
    simpa only [State.window, hk] using h
  rw [State.writeWindow, dif_pos (by omega), if_pos hlocked]

theorem State.channelWrite_windows (s : State) (f : Option State) (h : ∀ t, f = some t → t.windows = s.windows) :
    (s.channelWrite f).1.windows = s.windows := by
  unfold State.channelWrite
  split
  · rfl
  · split
    · rfl
    · split
      · exact h _ rfl
      · rfl

theorem State.writeMap_windows (s : State) (i : MapItem) (v : Byte) : (s.writeMap i v).1.windows = s.windows := by
  apply s.channelWrite_windows
  intro t h
  obtain ⟨m, -, rfl⟩ := Option.map_eq_some_iff.mp h
  rfl

theorem State.writeBlind_windows (s : State) (v : Byte) : (s.writeBlind v).1.windows = s.windows := by
  apply s.channelWrite_windows
  intro t h
  obtain ⟨p, -, rfl⟩ := Option.map_eq_some_iff.mp h
  rfl

theorem State.anyLocked_of_locked (s : State) (k : Fin 16) (h : s.windows[k].locked = true) :
    s.anyLocked = true :=
  List.any_eq_true.mpr ⟨s.windows[k], Vector.mem_toList_iff.mpr (Vector.getElem_mem k.isLt), h⟩

/-- While a window is LOCKED map and blind policy are refused with LOCKED (R17, R104). -/
theorem State.channelWrite_locked (s : State) (f : Option State) (h : s.anyLocked = true) :
    s.channelWrite f = (s, Answer.refuse .locked) := if_pos h

theorem State.writeRule_windows (s : State) (i : Byte) (v : BitVec 24) :
    (s.writeRule i v).1.windows = s.windows := by
  unfold State.writeRule
  split
  · split <;> rfl
  · rfl

theorem State.writeStage_windows (s : State) (i : Byte) (v : BitVec 160) :
    (s.writeStage i v).1.windows = s.windows := by
  unfold State.writeStage
  split
  · split
    · rfl
    · split
      · simp only
        split <;> rfl
      · rfl
  · rfl

theorem State.settingWrite_windows (s : State) (f : Option Capture) :
    (s.settingWrite f).1.windows = s.windows := by
  unfold State.settingWrite
  split <;> rfl

theorem State.writeTrace_windows (s : State) (i : Byte) (v : BitVec 16) :
    (s.writeTrace i v).1.windows = s.windows := by
  have busyOr (b : Prop) [Decidable b] (f : Option Capture) :
      (if b then (s, Answer.refuse .busy) else s.settingWrite f).1.windows = s.windows := by
    split
    · rfl
    · exact s.settingWrite_windows f
  unfold State.writeTrace
  simp only
  split
  · exact busyOr _ _
  · exact busyOr _ _
  · exact s.settingWrite_windows _
  · exact s.settingWrite_windows _
  · exact s.settingWrite_windows _
  · exact s.settingWrite_windows _
  · exact s.settingWrite_windows _
  · rfl

theorem State.writeAlert_windows (s : State) (v : BitVec 24) : (s.writeAlert v).1.windows = s.windows := by
  unfold State.writeAlert
  split <;> rfl

theorem State.writeCue_windows (s : State) (i : Byte) (v : BitVec 32) :
    (s.writeCue i v).1.windows = s.windows := by
  unfold State.writeCue
  split
  · split <;> rfl
  · rfl

theorem State.writeTime_windows (s : State) (v : BitVec 56) : (s.writeTime v).1.windows = s.windows := by
  unfold State.writeTime
  split <;> rfl

theorem State.writeItem_lockStep (s : State) (g i : Byte) (v : List Byte) :
    s.LockStep (s.writeItem g i v).1 := by
  unfold State.writeItem
  split
  · exact .refl s
  · split
    · split
      · exact .of_windows (s.writeMap_windows _ _)
      · exact .of_windows (s.writeMap_windows _ _)
      · exact .of_windows (s.writeMap_windows _ _)
      · exact .of_windows (s.writeBlind_windows _)
    · exact .of_windows (s.writeRule_windows _ _)
    · exact s.writeWindow_lockStep _ _
    · exact .of_windows (s.writeStage_windows _ _)
    · exact .of_windows (s.writeTrace_windows _ _)
    · exact .of_windows (s.writeAlert_windows _)
    · exact .of_windows (s.writeCue_windows _ _)
    · exact .of_windows (s.writeTime_windows _)
    · exact .refl s

/-! ### Requests -/

theorem State.readItem_windows (s : State) (g i : Byte) : (s.readItem g i).1.windows = s.windows := by
  unfold State.readItem
  split <;> rfl

theorem State.readTrace_windows (s : State) : s.readTrace.1.windows = s.windows := by
  unfold State.readTrace
  split <;> rfl

theorem State.acknowledge_windows (s : State) (causes : BitVec 16) :
    (s.acknowledge causes).1.windows = s.windows := by
  unfold State.acknowledge
  split <;> rfl

theorem State.flushCapture_windows (s : State) : s.flushCapture.1.windows = s.windows := by
  unfold State.flushCapture
  split <;> rfl

theorem State.armSequencer_lockStep (s : State) : s.LockStep s.armSequencer := by
  unfold State.armSequencer
  split
  · exact .refl s
  · have entered := (s.setSeq_step { s.seq with queue := [] } rfl).trans (State.enterStage_step _ 0)
    exact (entered.trans (State.offerEvent_step _ _).event).lockStep

/-- LOCK WINDOW locks one window more and changes no fields (R115). -/
theorem State.lockWindow_lockStep (s : State) (number : Byte) : s.LockStep (s.lockWindow number).1 := by
  unfold State.lockWindow
  split
  · next h =>
    intro k hk
    simp only [Fin.getElem_fin, Vector.getElem_set]
    split
    · next e => simp only [e, and_self]
    · exact ⟨hk, rfl⟩
  · exact .refl s

/-- CLEAR COUNTS reaches of each window counter and mark alone (R99, R100). -/
theorem State.clearCounts_window (s : State) (k : Fin 16) : s.clearCounts.windows[k] = s.windows[k].clearCount := by
  simp [State.clearCounts]

theorem State.resetSoftly_window (s : State) (k : Fin 16) :
    s.resetSoftly.windows[k] = s.windows[k].softReset := by
  simp [State.resetSoftly]

/-- A soft reset keeps a LOCKED window whole (R87). -/
theorem State.resetSoftly_locked (s : State) (k : Fin 16) (h : s.windows[k].locked = true) :
    s.resetSoftly.windows[k] = s.windows[k] := by
  rw [s.resetSoftly_window, Window.softReset, if_pos h]

/-- Whatever a request does, no LOCKED window loses its lock or its fields. -/
theorem State.requestEffect_lockStep {s t : State} {c : Instr} {a : Answer}
    (h : s.requestEffect c = some (t, a)) : s.LockStep t := by
  have of (p : State × Answer) (hp : s.LockStep p.1) (e : some p = some (t, a)) : s.LockStep t := by
    rw [Option.some.inj e] at hp
    exact hp
  cases c with
  | readItem g i => exact of _ (.of_windows (s.readItem_windows g i)) h
  | readStatus => exact of _ (.refl s) h
  | readTrace => exact of _ (.of_windows s.readTrace_windows) h
  | ack x => exact of _ (.of_windows (s.acknowledge_windows x)) h
  | captureStart => exact of _ s.startCapture_step.event.lockStep h
  | captureStop => exact of _ s.stopCapture_step.event.lockStep h
  | flush => exact of _ (.of_windows s.flushCapture_windows) h
  | arm => exact of _ s.armSequencer_lockStep h
  | disarm => exact of _ (.of_windows rfl) h
  | lockWindow n => exact of _ (s.lockWindow_lockStep n) h
  | clearCounts => exact of _ (fun k hk => by rw [s.clearCounts_window]; exact ⟨hk, rfl⟩) h
  | clearViolations => exact of _ (.of_windows rfl) h
  | timeClear => exact of _ (.of_windows rfl) h
  | shadowForget => exact of _ s.forgetShadow_lockStep h
  | setPins v => exact of _ (.of_windows rfl) h
  | softReset => exact of _ (fun k hk => by rw [s.resetSoftly_locked k hk]; exact ⟨hk, rfl⟩) h
  | unknownRequest code =>
    change (if _ then none else some (s, _)) = _ at h
    split at h
    · cases h
    · exact of _ (.refl s) h
  | writeAddressMap i v => exact of _ (.of_windows (s.writeMap_windows i v)) h
  | writeBlindPolicy v => exact of _ (.of_windows (s.writeBlind_windows v)) h
  | writeRule i v => exact of _ (.of_windows (s.writeRule_windows i v)) h
  | writeWindow i v => exact of _ (s.writeWindow_lockStep i v) h
  | writeStage i v => exact of _ (.of_windows (s.writeStage_windows i v)) h
  | writeTraceSetting i v => exact of _ (.of_windows (s.writeTrace_windows i v)) h
  | writeAlertEnables v => exact of _ (.of_windows (s.writeAlert_windows v)) h
  | writeCue i v => exact of _ (.of_windows (s.writeCue_windows i v)) h
  | writeTime v => exact of _ (.of_windows (s.writeTime_windows v)) h
  | writeItem g i v =>
    change (if _ then some (s.writeItem g i v) else none) = _ at h
    split at h
    · exact of _ (s.writeItem_lockStep g i v) h
    · cases h
  | _ => cases h

theorem State.request_lockStep (s : State) (c : Instr) : s.LockStep (s.request c) := by
  unfold State.request
  split
  · exact .refl s
  · next t a h =>
    have answered : t.LockStep (t.respond a) := .of_windows rfl
    exact (State.requestEffect_lockStep h).trans answered

theorem State.serveWaiting_lockStep (s : State) : s.LockStep s.serveWaiting := by
  unfold State.serveWaiting
  split
  · exact .refl s
  · exact s.request_lockStep _

/-! ### The end of a slot -/

theorem State.endPulses_step (l : List PinNo) (s : State) : s.EventStep (l.foldl State.endPulse s) := by
  induction l generalizing s with
  | nil => exact .refl s
  | cons p l ih => exact (s.endPulse_step p).trans (ih _)

/-- What a slot owes after forwarding and the auto-close completions is of the part's own events alone. -/
theorem State.eventsAfterCompletions_step (s : State) :
    s.EventStep (allPins.foldl State.endPulse
      (s.allEffects.settleHolder.resolveVoid .write).allDone.intervalTurn.takeTurn.timeout.unitTurn.pickTurn) :=
  have tracked : s.EventStep (s.allEffects.settleHolder.resolveVoid .write).allDone :=
    ((s.allEffects_step.trans (State.settleHolder_step _)).trans (State.resolveVoid_step _ _)).trans
      (State.allDone_step _)
  have sequenced (t : State) : t.EventStep t.intervalTurn.takeTurn.timeout :=
    (t.intervalTurn_step.trans (State.takeTurn_step _)).trans (State.timeout_step _)
  have captured (t : State) : t.EventStep t.unitTurn.pickTurn :=
    t.unitTurn_step.trans (State.pickTurn_step _)
  ((tracked.trans (sequenced _)).trans (captured _)).trans (State.endPulses_step allPins _)

theorem State.owedEvents_lockStep (s : State) : s.LockStep s.owedEvents := by
  have forwarded : s.LockStep s.forwardCommand.forwardWrite.forwardRead :=
    ((State.LockStep.of_windows s.forwardCommand_windows).trans (State.forwardWrite_lockStep _)).trans
      (.of_windows (State.forwardRead_windows _))
  have completed (t : State) : t.LockStep t.allCompletions := .of_windows rfl
  exact (forwarded.trans (completed _)).trans (State.eventsAfterCompletions_step _).lockStep

theorem State.edgesJoined_step (l : List PinNo) (f : PinNo → Offers) (p : State × Offers) :
    p.1.EventStep (l.foldl (fun (p : State × Offers) pin => p.1.join p.2 (f pin)) p).1 := by
  induction l generalizing p with
  | nil => exact .refl _
  | cons pin l ih => exact (p.1.join_step _ _).trans (ih _)

theorem State.takeEdges_lockStep (s : State) : s.LockStep s.takeEdges := by
  have settled : s.LockStep s.settleLevels := .of_windows rfl
  unfold State.takeEdges
  split
  · exact settled
  · have joined := State.edgesJoined_step allPins s.edgeOffers (s.settleLevels, Offers.none)
    exact settled.trans (joined.trans (State.handOut_step _ _)).lockStep

theorem State.closeSlot_lockStep (s : State) : s.LockStep s.closeSlot :=
  have served := s.owedEvents_lockStep.trans (State.serveWaiting_lockStep _)
  (served.trans (State.takeEdges_lockStep _)).trans (.of_windows (State.takeWires_windows _))

theorem State.openSlot_lockStep (s : State) : s.LockStep s.openSlot := .of_windows rfl

/-! ### Every command -/

theorem State.whileUp_lockStep (s : State) (f : State → State) (h : s.LockStep (f s)) :
    ∃ t, s.whileUp f = .next t ∧ s.LockStep t := by
  refine ⟨_, rfl, ?_⟩
  split
  · exact .refl s
  · exact h

theorem State.serve_lockStep (s : State) (c : Instr) : ∃ t, s.serve c = .next t ∧ s.LockStep t := by
  apply s.whileUp_lockStep
  split
  · exact s.request_lockStep c
  · exact .refl s

/-- With PORST_N released, every command but its assertion keeps every LOCKED window (R116). -/
theorem exec_lockStep (c : Instr) (s : State) (hp : s.porst = false) (hc : c ≠ .powerOnResetAssert) :
    ∃ t, exec c s = .next t ∧ s.LockStep t := by
  cases c with
  | openBank | readBurst | writeBurst | closeBank | closeAll | refresh | modeLoad | sleepEnter | sleepExit =>
    exact ⟨_, rfl, s.arrive_lockStep _⟩
  | undefinedEncoding code =>
    refine ⟨_, rfl, ?_⟩
    split
    · exact .refl s
    · exact .of_windows rfl
  | forwardCommand => exact s.whileUp_lockStep _ (.of_windows s.forwardCommand_windows)
  | memoryResetAssertion =>
    apply s.whileUp_lockStep
    split
    · exact .refl s
    · exact s.assertReset_lockStep
  | memoryResetRelease =>
    apply s.whileUp_lockStep
    split
    · exact .refl s
    · exact s.releaseReset_lockStep
  | powerOnResetAssert => exact absurd rfl hc
  | powerOnResetRelease x => exact ⟨s, congrArg _ (if_neg (by simp [hp])), .refl s⟩
  | writeBeatReceive d0 m0 d1 m1 =>
    apply s.whileUp_lockStep
    split
    · exact .refl s
    · exact (s.takeBack_lockStep.trans (State.settleHolder_step _).lockStep).trans
        (State.receiveWrite_lockStep _ _ _)
  | readBeatReceive strobe d0 d1 =>
    apply s.whileUp_lockStep
    split
    · exact .refl s
    · split
      · exact .of_windows rfl
      · exact s.receiveRead_lockStep _ _
  | writeBeatForward => exact s.whileUp_lockStep _ s.forwardWrite_lockStep
  | readBeatForward => exact s.whileUp_lockStep _ (.of_windows s.forwardRead_windows)
  | voidSlotResolve =>
    apply s.whileUp_lockStep
    split
    · exact (s.resolveVoid_step _).lockStep
    · split
      · exact (s.allData_step.trans (State.resolveVoid_step _ _)).lockStep
      · exact .refl s
  | effectSlot place =>
    exact s.whileUp_lockStep (fun t => t.effectStep (t.numberAt place))
      (s.effectStep_step _).lockStep
  | dataSlot place =>
    exact s.whileUp_lockStep (fun t => t.dataStep (t.numberAt place))
      (s.dataStep_step _).lockStep
  | retireDone place =>
    exact s.whileUp_lockStep (fun t => t.doneStep (t.numberAt place))
      (s.doneStep_step _).lockStep
  | autoCloseCompletion b => exact s.whileUp_lockStep _ (.of_windows (s.completeAutoClose_windows b))
  | occurrenceTake => exact s.whileUp_lockStep _ s.takeTurn_step.lockStep
  | stageTimeout => exact s.whileUp_lockStep _ s.timeout_step.lockStep
  | arbiterPick => exact s.whileUp_lockStep _ s.pickTurn_step.lockStep
  | unitWrite => exact s.whileUp_lockStep _ s.unitTurn_step.lockStep
  | pulseEnd p => exact s.whileUp_lockStep _ (s.endPulse_step p).lockStep
  | cueInputChange p level =>
    exact s.whileUp_lockStep (fun t => t.samplePin p level)
      (s.samplePin_step p level).lockStep
  | slotAdvance =>
    refine ⟨_, rfl, ?_⟩
    split
    · exact .of_windows rfl
    · exact s.closeSlot_lockStep.trans (State.openSlot_lockStep _)
  | intervalEvent => exact s.whileUp_lockStep _ s.intervalTurn_step.lockStep
  | frameAborted bytes =>
    apply s.whileUp_lockStep
    split
    · exact .refl s
    · exact .of_windows rfl
  | frameDiscardedWaiting =>
    apply s.whileUp_lockStep
    split
    · exact .refl s
    · exact .of_windows rfl
  | writeItem g i v =>
    change ∃ t, execWriteItem g i v s = _ ∧ _
    unfold execWriteItem
    split
    · exact s.whileUp_lockStep _ (.of_windows rfl)
    · exact s.serve_lockStep _
  | _ => exact s.serve_lockStep _

/-! ### Power-on reset and locked windows -/

theorem exec_powerOnResetAssert (s : State) (hp : s.porst = false) :
    exec .powerOnResetAssert s = .next { s.powered true false 0 false with wires := s.wires.tail } :=
  congrArg Host.Outcome.next (if_neg (by simp [hp]))

/-- Power-on reset gives every window its default (R87). -/
theorem State.powered_window (s : State) (k : Fin 16) :
    (s.powered true false 0 false).windows[k] = Window.default := by
  simp [State.powered, State.powerOn]

/-- Settles O11: the first clause by `exec_lockStep`; each request's clause by what its effect does to a LOCKED
window, through the port's service of it; power-on reset by its power-on values. -/
theorem lockedWindowIsFrozen : Obligations.LockedWindowIsFrozen := by
  unfold Obligations.LockedWindowIsFrozen
  intro s k hp hk locked
  have refused {c : Instr} (h : s.requestEffect c = some (s, Answer.refuse .locked)) (hs : s.Serves c) :
      exec c s = locked := exec_request h hs
  have shut := s.anyLocked_of_locked k hk
  refine ⟨?everyCommand, ?write, ?softReset, ?clearCounts, ?map, ?policy, ?powerOn⟩
  case everyCommand =>
    intro c t hc h
    obtain ⟨u, hu, hstep⟩ := exec_lockStep c s hp hc
    cases hu.symm.trans h
    exact hstep k hk
  case write => exact fun v => refused (congrArg some (s.writeWindow_locked k v hk))
  case softReset => exact fun hs => ⟨_, exec_request rfl hs, s.resetSoftly_locked k hk, rfl⟩
  case clearCounts => exact fun hs => ⟨_, exec_request rfl hs, s.clearCounts_window k⟩
  case map => exact fun i v => refused (congrArg some (s.channelWrite_locked _ shut))
  case policy => exact fun v => refused (congrArg some (s.channelWrite_locked _ shut))
  case powerOn =>
    exact ⟨_, exec_powerOnResetAssert s hp, s.powered_window k⟩

end Sys2Proof.Machine
end

section
/-! SUPPORT. What meets a term, said once: the kind of occurrence each term names and the detail that matches (R121),
and that the entry occurrence is apart from the queued ones (R131). -/
namespace Sys2Proof.Machine

/-- Two sets meet exactly when they share a member. -/
theorem and_ne_zero_iff_exists_getLsbD {w : Nat} (a b : BitVec w) :
    (a &&& b) ≠ 0 ↔ ∃ n, a.getLsbD n = true ∧ b.getLsbD n = true := by
  rw [ne_eq, BitVec.ofNat_eq_ofNat, BitVec.zero_iff_eq_false]
  simp [BitVec.getLsbD_and]

/-! ### Queued occurrences (R121) -/

theorem Term.windowHit_metBy (set : WindowSet) (o : Occurrence) :
    (Term.windowHit set).metBy o = true ↔ ∃ k, o = .windowHit k ∧ set.getLsbD k.val = true := by
  unfold Term.metBy
  cases o with
  | windowHit k => simp
  | _ => simp

theorem Term.violation_metBy (set : RuleSet) (o : Occurrence) :
    (Term.violation set).metBy o = true ↔
      ∃ rules n, o = .violation rules ∧ set.getLsbD n = true ∧ rules.getLsbD n = true := by
  unfold Term.metBy
  cases o with
  | violation rules =>
    have shared := and_ne_zero_iff_exists_getLsbD set rules
    simpa using shared
  | _ => simp

theorem Term.guard_metBy (o : Occurrence) : Term.guard.metBy o = true ↔ o = .guardEvent := by
  unfold Term.metBy
  cases o <;> simp

theorem Term.cueEdge_metBy (p : PinNo) (e : Edge) (o : Occurrence) :
    (Term.cueEdge p e).metBy o = true ↔ o = .cueEdge p e := by
  unfold Term.metBy
  cases o with
  | cueEdge q f => simp [eq_comm (a := p), eq_comm (a := e)]
  | _ => simp

theorem Term.interval_metBy (o : Occurrence) : Term.interval.metBy o = true ↔ o = .interval := by
  unfold Term.metBy
  cases o <;> simp

/-- No queued occurrence meets ALWAYS. -/
theorem Term.always_metBy (o : Occurrence) : Term.always.metBy o = false := by
  cases o <;> rfl

/-! ### What a stage takes (R130, R131) -/

@[simp] theorem Term.meets_queued (t : Term) (o : Occurrence) : t.meets (.queued o) = t.metBy o := rfl

@[simp] theorem Term.meets_entry (t : Term) : t.meets .entry = true ↔ t = .always := by
  simp [Term.meets]

/-- A term other than ALWAYS is met by queued occurrences alone, those of its kind and detail. -/
theorem Term.meets_iff_queued {t : Term} (ht : t ≠ .always) (x : Taken) :
    t.meets x = true ↔ ∃ o, x = .queued o ∧ t.metBy o = true := by
  cases x with
  | entry => simp [ht]
  | queued o => simp

theorem Term.always_meets (x : Taken) : Term.always.meets x = true ↔ x = .entry := by
  cases x with
  | entry => simp
  | queued o => simp [Term.always_metBy]

/-- Settles O39: the entry occurrence is split off from the queued ones, which each term judges by kind and detail. -/
theorem termsAreMet : Obligations.TermsAreMet := by
  unfold Obligations.TermsAreMet
  refine ⟨?windowHit, ?violation, ?guard, ?cueEdge, ?interval, ?always⟩
  case windowHit =>
    intro x set
    rw [Term.meets_iff_queued (by simp)]
    simp only [Term.windowHit_metBy]
    constructor
    · rintro ⟨_, rfl, k, rfl, hk⟩
      exact ⟨k, rfl, hk⟩
    · rintro ⟨k, rfl, hk⟩
      exact ⟨_, rfl, k, rfl, hk⟩
  case violation =>
    intro x set
    rw [Term.meets_iff_queued (by simp)]
    simp only [Term.violation_metBy]
    constructor
    · rintro ⟨_, rfl, rules, n, rfl, shared⟩
      exact ⟨rules, n, rfl, shared⟩
    · rintro ⟨rules, n, rfl, shared⟩
      exact ⟨_, rfl, rules, n, rfl, shared⟩
  case guard => simp [Term.meets_iff_queued, Term.guard_metBy]
  case cueEdge => simp [Term.meets_iff_queued, Term.cueEdge_metBy]
  case interval => simp [Term.meets_iff_queued, Term.interval_metBy]
  case always => exact Term.always_meets

end Sys2Proof.Machine
end

section
/-! SUPPORT. FLUSH and READ TRACE by their branches: capture running or not (R164), the store empty or with an oldest
record (R162). -/
namespace Sys2Proof.Machine

/-! ### FLUSH (R164) -/

theorem Capture.running_iff (c : Capture) : c.running = true ↔ c.state = .run ∨ c.state = .post := by
  simp [Capture.running]

theorem State.flushCapture_running (s : State) (h : s.capture.running = true) :
    s.flushCapture = (s, Answer.refuse .busy) := if_pos h

/-- Trace capture after a FLUSH: of what capture holds the settings, the note and the POST counter stay. -/
def Capture.flushed (c : Capture) : Capture :=
  { Capture.default with settings := c.settings, note := c.note, postCounter := c.postCounter }

theorem State.flushCapture_notRunning (s : State) (h : ¬ s.capture.running = true) :
    s.flushCapture = (s.setCapture s.capture.flushed, Answer.ok) := if_neg h

/-! ### READ TRACE (R159, R162) -/

theorem State.readTrace_empty (s : State) (h : s.capture.store = []) :
    s.readTrace = (s, Answer.refuse .empty) := by
  simp [State.readTrace, h]

theorem State.readTrace_oldest (s : State) (r : Record) (rest : List Record) (h : s.capture.store = r :: rest) :
    s.readTrace =
      (s.setCapture { s.capture with store := rest, wrapped := false },
       { status := .ok, data := boolByte s.capture.wrapped :: r.units.flatten }) := by
  simp [State.readTrace, h]

@[simp] theorem fillOf_cons (r : Record) (rest : List Record) : fillOf (r :: rest) = r.length + fillOf rest :=
  List.sum_cons

/-- Settles O44: each request's effect by its branches, through the port's service of it. -/
theorem storeIsReadAndFlushed : Obligations.StoreIsReadAndFlushed := by
  unfold Obligations.StoreIsReadAndFlushed
  refine ⟨fun s hs => ?flush, fun s hs => ⟨fun hempty => ?empty, fun r rest hstore => ⟨?oldest, fillOf_cons r rest⟩⟩⟩
  case flush =>
    have running := s.capture.running_iff
    split
    case isTrue h => exact exec_request (congrArg some (s.flushCapture_running (running.mpr h))) hs
    case isFalse h => exact exec_request (congrArg some (s.flushCapture_notRunning (mt running.mp h))) hs
  case empty => exact exec_request (congrArg some (s.readTrace_empty hempty)) hs
  case oldest => exact exec_request (congrArg some (s.readTrace_oldest r rest hstore)) hs

end Sys2Proof.Machine
end

section
/-! SUPPORT. The alert unit by the bits of its cause sets (R167, R169), and ACK by its branches: every member of the
set names a cause, or one names none (R170). -/
namespace Sys2Proof.Machine

/-! ### Potency and ALERT_N (R169) -/

theorem Cause.getElem_set_guardLocked (c : Fin 10) : Cause.guardLocked.set[c.val] = decide (c = 2) := by
  revert c
  decide

/-- GUARD_LOCKED needs its latch alone, any other cause its enable and the global enable too. -/
theorem Alert.getElem_potent (a : Alert) (c : Fin 10) :
    a.potent[c.val] = (a.latches[c.val] && (decide (c = 2) || a.enables[c.val] && a.globalOn)) := by
  have guardLocked := Cause.getElem_set_guardLocked c
  unfold Alert.potent
  cases a.globalOn with
  | false => simp [guardLocked]
  | true =>
    simp only [BitVec.getElem_or, BitVec.getElem_and, BitVec.getElem_not, guardLocked, if_true, Bool.and_true]
    by_cases hc : c = 2 <;> simp [hc]

theorem Alert.asserted_iff (a : Alert) : a.asserted = true ↔ ∃ c : Fin 10, a.potent.getLsbD c.val = true := by
  have noMember := members_eq_nil a.potent
  simp only [List.eq_nil_iff_forall_not_mem, mem_members] at noMember
  rw [Alert.asserted, bne_iff_ne, ne_eq, ← noMember, not_forall_not]

/-- With every latch clear no cause is potent, whatever the enables. -/
theorem Alert.asserted_of_latches_clear {a : Alert} (h : a.latches = 0) : a.asserted = false := by
  simp [Alert.asserted, Alert.potent, h]

@[simp] theorem State.powered_alert (s : State) (porst mrst : Bool) (pins : BitVec 4) (select : Bool) :
    (s.powered porst mrst pins select).alert = Alert.default := rfl

/-- Settles O47: potency bit by bit, ALERT_N by the potent set having a member, and power-on reset by its power-on
values, in which no latch is set. -/
theorem alertFollowsPotency : Obligations.AlertFollowsPotency := by
  unfold Obligations.AlertFollowsPotency
  refine ⟨fun a c => ?potent, Alert.asserted_iff, fun s hp => ?powerOn⟩
  case potent => simp [a.getElem_potent c]
  case powerOn =>
    have clear : (s.powered true false 0 false).alert.latches = 0 := by simp [Alert.default]
    exact ⟨_, exec_powerOnResetAssert s hp, clear, Alert.asserted_of_latches_clear clear⟩

/-! ### ACK (R170) -/

/-- A member among bits 15 to 10 names no cause; a set has one exactly when its value reaches 2^10, the bound ACK
tests. -/
theorem namesNoCause_iff (causes : BitVec 16) :
    (∃ n : Fin 6, causes.getLsbD (10 + n.val) = true) ↔ ¬ causes.toNat < 1024 := by
  constructor
  · rintro ⟨n, hn⟩ hlt
    have clear : causes.toNat.testBit (10 + n.val) = false :=
      Nat.testBit_lt_two_pow (hlt.trans_le (Nat.pow_le_pow_right (n := 2) (by decide) (Nat.le_add_right 10 n.val)))
    exact Bool.false_ne_true (clear.symm.trans hn)
  · intro hge
    obtain ⟨i, hi, hbit⟩ := Nat.exists_ge_and_testBit_of_ge_two_pow (n := 10) (Nat.not_lt.mp hge)
    have hlt : i < 16 := BitVec.lt_of_getLsbD hbit
    exact ⟨⟨i - 10, by omega⟩, by rwa [Nat.add_sub_cancel' hi]⟩

theorem State.acknowledge_causes (s : State) (causes : BitVec 16) (h : causes.toNat < 1024) :
    s.acknowledge causes =
      ({ s with alert := { s.alert with latches := s.alert.latches &&& ~~~(causes.setWidth 10) } }, Answer.ok) :=
  if_pos h

theorem State.acknowledge_refused (s : State) (causes : BitVec 16) (h : ¬ causes.toNat < 1024) :
    s.acknowledge causes = (s, Answer.refuse .range) := if_neg h

/-- Settles O48: the effect by whether a member names no cause, through the port's service of it. -/
theorem ackClearsNamedLatches : Obligations.AckClearsNamedLatches := by
  unfold Obligations.AckClearsNamedLatches
  intro s causes hs
  have outside := namesNoCause_iff causes
  split
  case isTrue h => exact exec_request (congrArg some (s.acknowledge_refused causes (outside.mp h))) hs
  case isFalse h =>
    exact exec_request (congrArg some (s.acknowledge_causes causes (not_not.mp (mt outside.mpr h)))) hs

end Sys2Proof.Machine
end

section
/-! SUPPORT. Trace capture as a whole: what keeps its bounds (R140, R144, R154 to R159). A staging queue is judged by
itself (`Staging.Fits`), everything but the writer's own clause together (`Capture.Bounds`). -/
namespace Sys2Proof.Machine

/-! ### Record lengths and the fill (R149, R159) -/

theorem Record.length_pos (r : Record) : 1 ≤ r.length := by
  cases r with
  | access r => simp only [Record.length]; omega
  | _ => exact Nat.le_refl 1

@[simp] theorem fillOf_append (l m : List Record) : fillOf (l ++ m) = fillOf l + fillOf m := by
  simp [fillOf]

@[simp] theorem fillOf_nil : fillOf [] = 0 := rfl

/-- What is left after the discards has room for the record (R161). -/
theorem discardOldest_room (n : Nat) (h : n ≤ 4096) (l : List Record) : n ≤ freeUnits (discardOldest n l) := by
  induction l with
  | nil => simpa [discardOldest, freeUnits, Config.storeUnits] using h
  | cons r rest ih =>
    unfold discardOldest
    split
    · next hfree => exact hfree
    · exact ih

/-! ### Queues -/

@[simp] theorem Capture.queue_setQueue_same (c : Capture) (q : QueueId) (x : Staging) :
    (c.setQueue q x).queue q = x := by
  cases q <;> rfl

theorem Capture.queue_setQueue_other (c : Capture) {q p : QueueId} (x : Staging) (h : p ≠ q) :
    (c.setQueue q x).queue p = c.queue p := by
  cases q <;> cases p <;> first | rfl | exact absurd rfl h

/-- A queue replaced reaches no other field of trace capture. -/
theorem Capture.setQueue_eq (c : Capture) (q : QueueId) (x : Staging) :
    c.setQueue q x =
      { c with
        access := (c.setQueue q x).access, event := (c.setQueue q x).event, marker := (c.setQueue q x).marker } := by
  cases q <;> rfl

@[simp] theorem Capture.setQueue_state (c : Capture) (q : QueueId) (x : Staging) :
    (c.setQueue q x).state = c.state := by cases q <;> rfl
@[simp] theorem Capture.setQueue_postCounter (c : Capture) (q : QueueId) (x : Staging) :
    (c.setQueue q x).postCounter = c.postCounter := by cases q <;> rfl
@[simp] theorem Capture.setQueue_full (c : Capture) (q : QueueId) (x : Staging) :
    (c.setQueue q x).full = c.full := by cases q <;> rfl
@[simp] theorem Capture.setQueue_note (c : Capture) (q : QueueId) (x : Staging) :
    (c.setQueue q x).note = c.note := by cases q <;> rfl
@[simp] theorem Capture.setQueue_rotation (c : Capture) (q : QueueId) (x : Staging) :
    (c.setQueue q x).rotation = c.rotation := by cases q <;> rfl
@[simp] theorem Capture.setQueue_store (c : Capture) (q : QueueId) (x : Staging) :
    (c.setQueue q x).store = c.store := by cases q <;> rfl
@[simp] theorem Capture.setQueue_writer (c : Capture) (q : QueueId) (x : Staging) :
    (c.setQueue q x).writer = c.writer := by cases q <;> rfl
@[simp] theorem Capture.setQueue_wrapped (c : Capture) (q : QueueId) (x : Staging) :
    (c.setQueue q x).wrapped = c.wrapped := by cases q <;> rfl
@[simp] theorem Capture.setQueue_running (c : Capture) (q : QueueId) (x : Staging) :
    (c.setQueue q x).running = c.running := by cases q <;> rfl

/-- What the invariant says of one staging queue, with its places and whether capture runs (R154 to R156). -/
structure Staging.Fits (x : Staging) (places : Nat) (running : Bool) : Prop where
  length : x.records.length ≤ places
  whole : ∀ r ∈ x.records, r.length ≤ 6
  lost : x.lost ≤ 65535
  empty : running = false → x.records = []
  full : running = true → x.lost ≠ 0 → x.records.length = places

/-- The invariant of trace capture without the clause about the record in progress. -/
structure Capture.Bounds (c : Capture) : Prop where
  queues : ∀ q, (c.queue q).Fits q.places c.running
  counter : c.postCounter ≤ 4095
  post : c.state = .post → 1 ≤ c.postCounter
  note : c.running = true → c.note = none
  space : fillOf c.store + c.reserved ≤ 4096
  rotation : c.rotation.Perm [.event, .access, .marker]

/-- What the invariant says of the record in progress (R158). -/
def Writer.Sound (w : Writer) : Prop :=
  1 ≤ w.written ∧ w.written < w.record.length ∧ w.record.length ≤ 6

theorem Capture.queueInv_iff (c : Capture) (q : QueueId) :
    c.QueueInv q ↔ (c.queue q).Fits q.places c.running :=
  ⟨fun ⟨h1, h2, h3, h4, h5⟩ => ⟨h1, h2, h3, h4, h5⟩, fun ⟨h1, h2, h3, h4, h5⟩ => ⟨h1, h2, h3, h4, h5⟩⟩

theorem Capture.inv_iff (c : Capture) : c.Inv ↔ c.Bounds ∧ ∀ w ∈ c.writer, w.Sound := by
  constructor
  · rintro ⟨ha, he, hm, hcounter, hpost, hnote, hspace, hwriter, hrotation⟩
    refine ⟨⟨fun q => ?_, hcounter, hpost, hnote, hspace, hrotation⟩, hwriter⟩
    cases q with
    | access => exact (c.queueInv_iff _).mp ha
    | event => exact (c.queueInv_iff _).mp he
    | marker => exact (c.queueInv_iff _).mp hm
  · rintro ⟨⟨hqueues, hcounter, hpost, hnote, hspace, hrotation⟩, hwriter⟩
    have queue q := (c.queueInv_iff q).mpr (hqueues q)
    exact ⟨queue _, queue _, queue _, hcounter, hpost, hnote, hspace, hwriter, hrotation⟩

/-- With one queue replaced by one that fits the bounds hold on. -/
theorem Capture.Bounds.setQueue {c : Capture} (h : c.Bounds) {q : QueueId} {x : Staging}
    (hx : x.Fits q.places c.running) : (c.setQueue q x).Bounds := by
  obtain ⟨hqueues, hcounter, hpost, hnote, hspace, hrotation⟩ := h
  refine ⟨fun p => ?_, by simpa, by simpa, by simpa, by simpa [Capture.reserved], by simpa⟩
  rw [Capture.setQueue_running]
  by_cases hp : p = q
  · subst hp
    rwa [Capture.queue_setQueue_same]
  · rw [Capture.queue_setQueue_other _ _ hp]
    exact hqueues p

theorem Capture.Inv.setQueue {c : Capture} (h : c.Inv) {q : QueueId} {x : Staging}
    (hx : x.Fits q.places c.running) : (c.setQueue q x).Inv := by
  obtain ⟨hbounds, hwriter⟩ := c.inv_iff.mp h
  exact (Capture.inv_iff _).mpr ⟨hbounds.setQueue hx, by simpa using hwriter⟩

theorem Capture.Inv.fits {c : Capture} (h : c.Inv) (q : QueueId) : (c.queue q).Fits q.places c.running :=
  (c.inv_iff.mp h).1.queues q

/-! ### Offers (R154, R155) -/

/-- A record with a place joins its queue, which then has nothing lost. -/
theorem Staging.Fits.append {x : Staging} {places : Nat} (h : x.Fits places true) {r : Record}
    (hr : r.length ≤ 6) (hl : x.records.length < places) :
    Staging.Fits { x with records := x.records ++ [r] } places true := by
  have nothingLost : x.lost = 0 := by
    by_contra hne
    exact absurd (h.full rfl hne) (Nat.ne_of_lt hl)
  refine ⟨by simpa using hl, fun y hy => ?_, h.lost, nofun, fun _ hne => absurd nothingLost hne⟩
  rcases List.mem_append.mp hy with hy | hy
  · exact h.whole y hy
  · rw [List.mem_singleton.mp hy]
    exact hr

theorem raiseLost_le (lost n : Nat) : raiseLost lost n ≤ 65535 := Nat.min_le_right _ _

theorem Staging.Fits.lose {x : Staging} {places : Nat} (h : x.Fits places true)
    (hl : ¬ x.records.length < places) : Staging.Fits { x with lost := raiseLost x.lost 1 } places true :=
  ⟨h.length, h.whole, raiseLost_le _ _, nofun, fun _ _ => Nat.le_antisymm h.length (Nat.not_lt.mp hl)⟩

theorem State.offer_stopped (s : State) (q : QueueId) (r : Record) (h : s.capture.running = false) :
    s.offer q r = s := by
  simp [State.offer, h]

theorem State.offer_place (s : State) (q : QueueId) (r : Record) (h : s.capture.running = true)
    (hl : (s.capture.queue q).records.length < q.places) :
    s.offer q r =
      s.setCapture (s.capture.setQueue q
        { s.capture.queue q with records := (s.capture.queue q).records ++ [r] }) := by
  simp [State.offer, h, hl]

theorem State.offer_lost (s : State) (q : QueueId) (r : Record) (h : s.capture.running = true)
    (hl : ¬ (s.capture.queue q).records.length < q.places) :
    s.offer q r =
      (s.setCapture (s.capture.setQueue q
        { s.capture.queue q with lost := raiseLost (s.capture.queue q).lost 1 })).setLatchIf .captureGap
        ((s.capture.queue q).lost == 0) := by
  simp [State.offer, h, hl]

theorem State.offer_inv (s : State) (q : QueueId) (r : Record) (h : s.capture.Inv) (hr : r.length ≤ 6) :
    (s.offer q r).capture.Inv := by
  by_cases hrun : s.capture.running = true
  · have hfits := h.fits q
    rw [hrun] at hfits
    by_cases hl : (s.capture.queue q).records.length < q.places
    · rw [s.offer_place q r hrun hl]
      exact h.setQueue (by rw [hrun]; exact hfits.append hr hl)
    · rw [s.offer_lost q r hrun hl, State.setLatchIf_capture]
      exact h.setQueue (by rw [hrun]; exact hfits.lose hl)
  · rwa [s.offer_stopped q r (by simpa using hrun)]

/-! ### GAP records (R156) -/

/-- Trace capture once a lost count has had its chance to enter its queue as a GAP record (R156). -/
def Capture.withGap (c : Capture) (now : Slot) (q : QueueId) : Capture :=
  if c.running ∧ (c.queue q).lost ≠ 0 ∧ (c.queue q).records.length < q.places then
    c.setQueue q { records := (c.queue q).records ++ [.gap q (c.queue q).lost now], lost := 0 }
  else c

theorem State.enterGap_eq (s : State) (q : QueueId) :
    s.enterGap q = s.setCapture (s.capture.withGap s.now q) := by
  unfold State.enterGap Capture.withGap
  simp only
  split <;> rfl

/-- In a queue with a place a lost count that is not 0 becomes a GAP record. -/
theorem Capture.withGap_place (c : Capture) (now : Slot) (q : QueueId) (hr : c.running = true)
    (hl : (c.queue q).records.length < q.places) :
    c.withGap now q =
      c.setQueue q
        { records := (c.queue q).records ++
            if (c.queue q).lost = 0 then [] else [.gap q (c.queue q).lost now]
          lost := 0 } := by
  unfold Capture.withGap
  by_cases h0 : (c.queue q).lost = 0
  · have same : ({ records := (c.queue q).records, lost := 0 } : Staging) = c.queue q := by rw [← h0]
    rw [if_neg (by simp [h0]), if_pos h0, List.append_nil, same]
    cases q <;> rfl
  · rw [if_pos ⟨hr, h0, hl⟩, if_neg h0]

/-! ### Entries into STOPPED (R145) -/

theorem Staging.discard_fits (x : Staging) (places : Nat) (h : x.lost ≤ 65535) : x.discard.Fits places false := by
  have fold (l : List Record) (n : Nat) (hn : n ≤ 65535) :
      l.foldl (fun n r => raiseLost n r.returned) n ≤ 65535 := by
    induction l generalizing n with
    | nil => exact hn
    | cons r l ih => exact ih _ (raiseLost_le _ _)
  exact ⟨by simp [Staging.discard], by simp [Staging.discard], fold _ _ h, fun _ => rfl, by simp⟩

theorem Capture.queue_enterStopped (c : Capture) (q : QueueId) : c.enterStopped.queue q = (c.queue q).discard := by
  cases q <;> rfl

/-- An entry into STOPPED keeps the bounds, whatever the POST counter has come to. -/
theorem Capture.bounds_enterStopped {c : Capture} (hlost : ∀ q, (c.queue q).lost ≤ 65535)
    (hcounter : c.postCounter ≤ 4095) (hspace : fillOf c.store + c.reserved ≤ 4096)
    (hrotation : c.rotation.Perm [.event, .access, .marker]) : c.enterStopped.Bounds where
  queues q := by
    rw [c.queue_enterStopped]
    exact Staging.discard_fits _ _ (hlost q)
  counter := hcounter
  post := by simp [Capture.enterStopped]
  note := by simp [Capture.enterStopped, Capture.running]
  space := hspace
  rotation := hrotation

theorem Capture.Inv.enterStopped {c : Capture} (h : c.Inv) : c.enterStopped.Inv := by
  obtain ⟨hbounds, hwriter⟩ := c.inv_iff.mp h
  exact (Capture.inv_iff _).mpr
    ⟨Capture.bounds_enterStopped (fun q => (hbounds.queues q).lost) hbounds.counter hbounds.space hbounds.rotation,
      hwriter⟩

/-! ### Start, stop and trigger (R141 to R143) -/

theorem State.stopCapture_inv (s : State) (h : s.capture.Inv) : s.stopCapture.capture.Inv := by
  unfold State.stopCapture
  split
  · exact h.enterStopped
  · exact h

/-- The record of the soft-reset note, while the channel class is on (R152). -/
def Capture.noteRecords (c : Capture) : List Record :=
  match c.note with
  | none => []
  | some stamp => if c.settings.classes.channel then [.channel .softReset stamp] else []

/-- Trace capture with its note in event staging, which an entry into RUN finds empty (R152). -/
def Capture.noted (c : Capture) : Capture :=
  { c with note := none, event := { c.event with records := c.noteRecords } }

theorem Capture.noteRecords_length (c : Capture) : c.noteRecords.length ≤ 1 := by
  unfold Capture.noteRecords
  split
  · simp
  · split <;> simp

theorem State.serveNote_eq (s : State) (hr : s.capture.running = true) (he : s.capture.event.records = []) :
    s.serveNote = s.setCapture s.capture.noted := by
  have same : ({ s.capture.event with records := [] } : Staging) = s.capture.event := by rw [← he]
  unfold State.serveNote Capture.noted Capture.noteRecords
  cases hn : s.capture.note with
  | none =>
    have kept : ({ s.capture with note := none, event := { s.capture.event with records := [] } } : Capture) =
        s.capture := by rw [same, ← hn]
    simp only
    rw [kept]
    rfl
  | some stamp =>
    by_cases hc : s.capture.settings.classes.channel = true
    · simp only [if_pos hc]
      rw [s.offerEvent_allowed (.channel .softReset stamp) hr hc, if_pos (by simp [he]), he]
      rfl
    · simp only [if_neg hc]
      rw [s.offerEvent_refused _ (.inr (by simpa [ClassEnables.allows] using hc)), same]

/-- Trace capture right after an entry into RUN (R141, R152, R156). -/
def State.startedCapture (s : State) : Capture :=
  { s.capture with
    state := .run, note := none, access := s.queueAtStart .access, event := s.queueAtStart .event
    marker := s.queueAtStart .marker }

theorem State.startCapture_running (s : State) (h : s.capture.running = true) : s.startCapture = s := if_pos h

/-- A start that finds capture not running, with its staging queues empty. -/
theorem State.startCapture_eq (s : State) (h : s.capture.running = false)
    (hq : ∀ q, (s.capture.queue q).records = []) : s.startCapture = s.setCapture s.startedCapture := by
  let run : Capture := { s.capture with state := .run }
  have access : run.noted.access.records = [] := hq .access
  have marker : run.noted.marker.records = [] := hq .marker
  have noted : (s.setCapture run).serveNote = s.setCapture run.noted :=
    (s.setCapture run).serveNote_eq rfl (hq .event)
  have event : run.noted.withGap s.now .event = { run.noted with event := s.queueAtStart .event } := by
    rw [Capture.withGap_place run.noted s.now .event rfl (Nat.lt_of_le_of_lt run.noteRecords_length (by decide))]
    unfold State.queueAtStart Capture.noted Capture.noteRecords Capture.setQueue
    simp only [run]
    cases s.capture.note <;> rfl
  have accessed (c : Capture) (hr : c.running = true) (ha : c.access = run.noted.access) :
      c.withGap s.now .access = { c with access := s.queueAtStart .access } := by
    have place : (c.queue .access).records.length < QueueId.access.places := by
      simp [Capture.queue, ha, access, QueueId.places]
    rw [Capture.withGap_place c s.now .access hr place]
    simp [State.queueAtStart, Capture.setQueue, Capture.queue, ha, access]
    rfl
  have marked (c : Capture) (hr : c.running = true) (hm : c.marker = run.noted.marker) :
      c.withGap s.now .marker = { c with marker := s.queueAtStart .marker } := by
    have place : (c.queue .marker).records.length < QueueId.marker.places := by
      simp [Capture.queue, hm, marker, QueueId.places]
    rw [Capture.withGap_place c s.now .marker hr place]
    simp [State.queueAtStart, Capture.setQueue, Capture.queue, hm, marker]
    rfl
  unfold State.startCapture
  rw [if_neg (by simp [h])]
  change ((((s.setCapture run).serveNote).enterGap .event).enterGap .access).enterGap .marker = _
  rw [noted, State.enterGap_eq, State.enterGap_eq, State.enterGap_eq]
  change s.setCapture (((run.noted.withGap s.now .event).withGap s.now .access).withGap s.now .marker) = _
  rw [event, accessed { run.noted with event := s.queueAtStart .event } rfl rfl,
    marked { run.noted with event := s.queueAtStart .event, access := s.queueAtStart .access } rfl rfl]
  rfl

theorem State.queueAtStart_fits (s : State) (q : QueueId) : (s.queueAtStart q).Fits q.places true := by
  have gaps : (if (s.capture.queue q).lost = 0 then []
      else [Record.gap q (s.capture.queue q).lost s.now]).length ≤ 1 := by
    split <;> simp
  have small (r : Record) : r ∈ (s.queueAtStart q).records → r.length ≤ 6 := by
    intro hr
    unfold State.queueAtStart at hr
    rcases List.mem_append.mp hr with hr | hr
    · split at hr
      · split at hr
        · rw [List.mem_singleton.mp hr]; exact (by decide : (1 : Nat) ≤ 6)
        · cases hr
      · cases hr
    · split at hr
      · cases hr
      · rw [List.mem_singleton.mp hr]; exact (by decide : (1 : Nat) ≤ 6)
  refine ⟨?_, small, Nat.zero_le _, by simp, fun _ h => absurd rfl h⟩
  unfold State.queueAtStart
  rw [List.length_append]
  cases q with
  | access => exact Nat.le_trans (Nat.add_le_add_left gaps _) (by simp [QueueId.places])
  | marker => exact Nat.le_trans (Nat.add_le_add_left gaps _) (by simp [QueueId.places])
  | event =>
    refine Nat.le_trans (Nat.add_le_add_left gaps _) ?_
    cases s.capture.note with
    | none => simp [QueueId.places]
    | some stamp =>
      simp only [QueueId.places]
      split <;> simp

theorem State.startCapture_inv (s : State) (h : s.capture.Inv) : s.startCapture.capture.Inv := by
  by_cases hr : s.capture.running = true
  · rwa [s.startCapture_running hr]
  · have stopped : s.capture.running = false := by simpa using hr
    obtain ⟨hbounds, hwriter⟩ := s.capture.inv_iff.mp h
    rw [s.startCapture_eq stopped fun q => (hbounds.queues q).empty stopped]
    refine (Capture.inv_iff _).mpr ⟨⟨fun q => ?_, hbounds.counter, by simp [State.setCapture, State.startedCapture],
      fun _ => rfl, hbounds.space, hbounds.rotation⟩, hwriter⟩
    have queue : s.startedCapture.queue q = s.queueAtStart q := by cases q <;> rfl
    exact queue ▸ s.queueAtStart_fits q

theorem State.triggerCapture_inv (s : State) (h : s.capture.Inv) : s.triggerCapture.capture.Inv := by
  unfold State.triggerCapture
  split
  · next hrun =>
    split
    · exact h.enterStopped
    · next hfill =>
      obtain ⟨hbounds, hwriter⟩ := s.capture.inv_iff.mp h
      have running : s.capture.running = true := s.capture.running_iff.mpr (.inl hrun)
      have queues q := hbounds.queues q
      rw [running] at queues
      have hle : s.capture.settings.postFill.toNat < 2 ^ 12 := s.capture.settings.postFill.isLt
      have hpos : s.capture.settings.postFill.toNat ≠ 0 := fun e => hfill (BitVec.eq_of_toNat_eq e)
      exact (Capture.inv_iff _).mpr ⟨⟨queues, by simp only [State.setCapture]; omega,
        fun _ => Nat.one_le_iff_ne_zero.mpr hpos, fun _ => hbounds.note running, hbounds.space, hbounds.rotation⟩,
        hwriter⟩
  · exact h

/-! ### The writer (R144, R158) -/

/-- A unit counted in POST keeps the bounds (R144). -/
theorem Capture.Inv.countUnit {c : Capture} (h : c.Inv) : c.countUnit.Inv := by
  obtain ⟨hbounds, hwriter⟩ := c.inv_iff.mp h
  have counter : c.postCounter - 1 ≤ 4095 := Nat.le_trans (Nat.sub_le _ _) hbounds.counter
  unfold Capture.countUnit
  simp only
  split
  · next hpost =>
    split
    · exact (Capture.inv_iff _).mpr ⟨Capture.bounds_enterStopped (fun q => (hbounds.queues q).lost) counter
        hbounds.space hbounds.rotation, hwriter⟩
    · next hlow =>
      exact (Capture.inv_iff _).mpr ⟨⟨hbounds.queues, counter, fun _ => by simp only; omega, hbounds.note,
        hbounds.space, hbounds.rotation⟩, hwriter⟩
  · exact h

/-- The last unit of a record puts it into the store, any other counts the units written (R158). -/
theorem Capture.advanceWriter_eq {c : Capture} {w : Writer} (hw : c.writer = some w) :
    c.advanceWriter =
      if w.record.length ≤ w.written + 1 then { c with writer := none, store := c.store ++ [w.record] }
      else { c with writer := some { w with written := w.written + 1 } } := by
  simp [Capture.advanceWriter, hw]

/-- The writer's next unit of a record of at most 6 units. -/
theorem Capture.Bounds.advanceWriter {c : Capture} (h : c.Bounds) {w : Writer} (hw : c.writer = some w)
    (h6 : w.record.length ≤ 6) : c.advanceWriter.Inv := by
  obtain ⟨hqueues, hcounter, hpost, hnote, hspace, hrotation⟩ := h
  have space : fillOf c.store + w.record.length ≤ 4096 := by simpa [Capture.reserved, hw] using hspace
  rw [Capture.advanceWriter_eq hw]
  split
  · exact (Capture.inv_iff _).mpr ⟨⟨hqueues, hcounter, hpost, hnote, by simpa [Capture.reserved] using space,
      hrotation⟩, by simp⟩
  · next hmore =>
    have more : Writer.Sound { w with written := w.written + 1 } :=
      ⟨Nat.le_add_left _ _, Nat.not_le.mp hmore, h6⟩
    exact (Capture.inv_iff _).mpr ⟨⟨hqueues, hcounter, hpost, hnote, space, hrotation⟩, by simpa using more⟩

theorem State.writeUnit_inv (s : State) (h : s.capture.Inv) : s.writeUnit.capture.Inv := by
  unfold State.writeUnit
  split
  · exact h
  · next hw =>
    obtain ⟨w, hw⟩ := Option.ne_none_iff_exists'.mp (mt Option.isNone_iff_eq_none.mpr hw)
    obtain ⟨hbounds, hwriter⟩ := s.capture.inv_iff.mp h
    obtain ⟨-, -, h6⟩ := hwriter w hw
    exact (hbounds.advanceWriter hw h6).countUnit

theorem State.unitTurn_inv (s : State) (h : s.capture.Inv) : s.unitTurn.capture.Inv := by
  unfold State.unitTurn
  split
  · exact h
  · exact s.writeUnit_inv h

/-! ### The arbiter's pick (R157 to R161) -/

@[simp] theorem Capture.rotate_queue (c : Capture) (q p : QueueId) : (c.rotate q).queue p = c.queue p := by
  unfold Capture.rotate
  split <;> cases p <;> rfl

/-- The picked queue moves to the end of the rotating order, or the order stays: no other field changes (R157). -/
theorem Capture.rotate_eq (c : Capture) (q : QueueId) :
    c.rotate q =
      { c with rotation := match c.settings.arbiterMode with
        | .fixed => c.rotation
        | .rotating => c.rotation.filter (fun x => x != q) ++ [q] } := by
  unfold Capture.rotate
  cases c.settings.arbiterMode <;> rfl

theorem rotation_perm {l : List QueueId} (h : l.Perm [.event, .access, .marker]) (q : QueueId) :
    (l.filter (fun x => x != q) ++ [q]).Perm [.event, .access, .marker] := by
  refine ((h.filter _).append_right [q]).trans ?_
  cases q <;> decide

theorem Capture.rotate_rotation_perm {c : Capture} (h : c.rotation.Perm [.event, .access, .marker]) (q : QueueId) :
    (c.rotate q).rotation.Perm [.event, .access, .marker] := by
  unfold Capture.rotate
  split
  · exact h
  · exact rotation_perm h q

/-- Trace capture with the oldest record of queue `q` taken out and the order moved on. -/
def Capture.picked (c : Capture) (q : QueueId) (rest : List Record) : Capture :=
  (c.setQueue q { c.queue q with records := rest }).rotate q

@[simp] theorem Capture.picked_queue_same (c : Capture) (q : QueueId) (rest : List Record) :
    (c.picked q rest).queue q = { c.queue q with records := rest } := by
  simp [Capture.picked]

theorem Capture.picked_queue_other (c : Capture) {q p : QueueId} (rest : List Record) (h : p ≠ q) :
    (c.picked q rest).queue p = c.queue p := by
  simp [Capture.picked, Capture.queue_setQueue_other _ _ h]

@[simp] theorem Capture.picked_state (c : Capture) (q : QueueId) (rest : List Record) :
    (c.picked q rest).state = c.state := by simp [Capture.picked, Capture.rotate_eq]
@[simp] theorem Capture.picked_running (c : Capture) (q : QueueId) (rest : List Record) :
    (c.picked q rest).running = c.running := by simp [Capture.running]
@[simp] theorem Capture.picked_postCounter (c : Capture) (q : QueueId) (rest : List Record) :
    (c.picked q rest).postCounter = c.postCounter := by simp [Capture.picked, Capture.rotate_eq]
@[simp] theorem Capture.picked_note (c : Capture) (q : QueueId) (rest : List Record) :
    (c.picked q rest).note = c.note := by simp [Capture.picked, Capture.rotate_eq]
@[simp] theorem Capture.picked_full (c : Capture) (q : QueueId) (rest : List Record) :
    (c.picked q rest).full = c.full := by simp [Capture.picked, Capture.rotate_eq]
@[simp] theorem Capture.picked_store (c : Capture) (q : QueueId) (rest : List Record) :
    (c.picked q rest).store = c.store := by simp [Capture.picked, Capture.rotate_eq]
@[simp] theorem Capture.picked_writer (c : Capture) (q : QueueId) (rest : List Record) :
    (c.picked q rest).writer = c.writer := by simp [Capture.picked, Capture.rotate_eq]
@[simp] theorem Capture.picked_wrapped (c : Capture) (q : QueueId) (rest : List Record) :
    (c.picked q rest).wrapped = c.wrapped := by simp [Capture.picked, Capture.rotate_eq]
@[simp] theorem Capture.picked_settings (c : Capture) (q : QueueId) (rest : List Record) :
    (c.picked q rest).settings = c.settings := by simp [Capture.picked]

/-- The record begun, its space settled, its queue's lost count entered, and no unit written yet (R156, R161). -/
def Capture.begun (c : Capture) (now : Slot) (q : QueueId) (r : Record) : Capture :=
  Capture.withGap
    { c with
      store := discardOldest r.length c.store
      wrapped := c.wrapped || (discardOldest r.length c.store).length < c.store.length
      writer := some { record := r, written := 0 } } now q

theorem Capture.withGap_writer (c : Capture) (now : Slot) (q : QueueId) : (c.withGap now q).writer = c.writer := by
  unfold Capture.withGap
  split
  · simp
  · rfl

/-- The writer begins the record and writes its first unit in the same event (R158, log entry 10). -/
theorem State.beginRecord_eq (s : State) (q : QueueId) (r : Record) :
    s.beginRecord q r =
      { s with
        capture := (s.capture.begun s.now q r).advanceWriter.countUnit
        turns := { s.turns with unit := true } } := by
  have busy : (s.capture.begun s.now q r).writer = some { record := r, written := 0 } :=
    Capture.withGap_writer _ _ _
  unfold State.beginRecord
  simp only [State.enterGap_eq]
  unfold State.writeUnit
  rw [if_neg]
  · rfl
  · change ¬ (s.capture.begun s.now q r).writer.isNone = true
    simp [busy]

/-- The pick, by what it finds (R157, R160). -/
theorem State.pick_eq (s : State) {q : QueueId} {r : Record} {rest : List Record}
    (hr : s.capture.running = true) (hw : s.capture.writer = none) (hu : s.turns.unit = false)
    (hq : s.capture.chosen = some q) (hl : (s.capture.queue q).records = r :: rest) :
    s.pick =
      if s.capture.settings.storeMode = .stop ∧ freeUnits s.capture.store < r.length then
        (s.setCapture (s.capture.picked q rest)).stopFull q r
      else (s.setCapture (s.capture.picked q rest)).beginRecord q r := by
  have store : (s.capture.picked q rest).store = s.capture.store := s.capture.picked_store q rest
  unfold State.pick
  rw [if_pos ⟨hr, by rw [hw]; rfl, hu⟩]
  simp only [hq, hl]
  change (match s.capture.settings.storeMode with
    | .stop =>
      if freeUnits (s.capture.picked q rest).store < r.length then
        (s.setCapture (s.capture.picked q rest)).stopFull q r
      else (s.setCapture (s.capture.picked q rest)).beginRecord q r
    | .wrap => (s.setCapture (s.capture.picked q rest)).beginRecord q r) = _
  rw [store]
  cases s.capture.settings.storeMode with
  | stop => simp
  | wrap => simp

/-- Without a record to pick, or with the writer busy, nothing is picked. -/
theorem State.pick_none (s : State)
    (h : ¬ (s.capture.running = true ∧ s.capture.writer = none ∧ s.turns.unit = false) ∨
      ∀ q r rest, s.capture.chosen = some q → (s.capture.queue q).records ≠ r :: rest) : s.pick = s := by
  unfold State.pick
  split
  · next hc =>
    obtain ⟨hr, hw, hu⟩ := hc
    rcases h with h | h
    · exact absurd ⟨hr, Option.isNone_iff_eq_none.mp hw, hu⟩ h
    · split
      · rfl
      · next q hq =>
        split
        · rfl
        · next r rest hl => exact absurd hl (h q r rest hq)
  · rfl

theorem Capture.picked_rotation_perm {c : Capture} (h : c.rotation.Perm [.event, .access, .marker]) (q : QueueId)
    (rest : List Record) : (c.picked q rest).rotation.Perm [.event, .access, .marker] :=
  Capture.rotate_rotation_perm (c := c.setQueue q { c.queue q with records := rest }) (by simpa using h) q

/-- The queues after a pick that finds no space: the record's number returns to its queue (R160). -/
def Capture.returned (c : Capture) (q : QueueId) (r : Record) : Capture :=
  c.setQueue q { c.queue q with lost := raiseLost (c.queue q).lost r.returned }

theorem State.stopFull_eq (s : State) (q : QueueId) (r : Record) :
    s.stopFull q r =
      (s.setCapture { (s.capture.returned q r).enterStopped with full := true }).setLatch .traceFull := rfl

theorem Capture.Inv.stopFull {c : Capture} (h : c.Inv) (q : QueueId) (r : Record) (rest : List Record) :
    Capture.Inv { ((c.picked q rest).returned q r).enterStopped with full := true } := by
  obtain ⟨hbounds, hwriter⟩ := c.inv_iff.mp h
  have lost p : (((c.picked q rest).returned q r).queue p).lost ≤ 65535 := by
    unfold Capture.returned
    by_cases hp : p = q
    · subst hp
      rw [Capture.queue_setQueue_same]
      exact raiseLost_le _ _
    · rw [Capture.queue_setQueue_other _ _ hp, Capture.picked_queue_other _ _ hp]
      exact (hbounds.queues p).lost
  obtain ⟨hqueues, hcounter, hpost, hnote, hspace, hrotation⟩ := Capture.bounds_enterStopped lost
    (by simpa [Capture.returned] using hbounds.counter)
    (by simpa [Capture.returned, Capture.reserved] using hbounds.space)
    (by simpa [Capture.returned] using Capture.picked_rotation_perm hbounds.rotation q rest)
  exact (Capture.inv_iff _).mpr ⟨⟨hqueues, hcounter, hpost, hnote, hspace, hrotation⟩,
    by simpa [Capture.returned, Capture.enterStopped] using hwriter⟩

/-- Of a queue that has lost records and a place again, what the GAP record makes fits (R156). -/
theorem Staging.fits_gap {rest : List Record} {q : QueueId} {lost : Nat} (now : Slot) (hl : rest.length < q.places)
    (hw : ∀ r ∈ rest, r.length ≤ 6) :
    Staging.Fits { records := rest ++ if lost = 0 then [] else [.gap q lost now], lost := 0 } q.places true := by
  refine ⟨?_, fun y hy => ?_, Nat.zero_le _, by simp, fun _ hne => absurd rfl hne⟩
  · split
    · simpa using Nat.le_of_lt hl
    · simpa using hl
  · rcases List.mem_append.mp hy with hy | hy
    · exact hw y hy
    · split at hy
      · cases hy
      · rw [List.mem_singleton.mp hy]
        exact (by decide : (1 : Nat) ≤ 6)

/-- The record begun takes its space, and its queue enters what it lost (R156, R158, R161). -/
theorem Capture.begun_eq (c : Capture) (now : Slot) (q : QueueId) (r : Record) (hr : c.running = true)
    (hl : (c.queue q).records.length < q.places) :
    c.begun now q r =
      { c.setQueue q
          { records := (c.queue q).records ++ if (c.queue q).lost = 0 then [] else [.gap q (c.queue q).lost now]
            lost := 0 } with
        store := discardOldest r.length c.store
        wrapped := c.wrapped || (discardOldest r.length c.store).length < c.store.length
        writer := some { record := r, written := 0 } } := by
  unfold Capture.begun
  cases q <;> exact Capture.withGap_place _ now _ hr hl

theorem Capture.Inv.begun {c : Capture} (h : c.Inv) {q : QueueId} {r : Record} {rest : List Record}
    (hr : c.running = true) (hl : (c.queue q).records = r :: rest) (now : Slot) :
    ((c.picked q rest).begun now q r).advanceWriter.Inv := by
  obtain ⟨hbounds, -⟩ := c.inv_iff.mp h
  have fits p := hbounds.queues p
  rw [hr] at fits
  have h6 : r.length ≤ 6 := (fits q).whole r (by simp [hl])
  have shorter : rest.length < q.places := by simpa [hl] using (fits q).length
  have whole (y : Record) (hy : y ∈ rest) : y.length ≤ 6 := (fits q).whole y (by simp [hl, hy])
  have room := discardOldest_room r.length (by omega) c.store
  have space : fillOf (discardOldest r.length c.store) + r.length ≤ 4096 := by
    simp only [freeUnits, Config.storeUnits] at room
    have := r.length_pos
    omega
  have running : (c.picked q rest).running = true := by simpa using hr
  rw [Capture.begun_eq _ now q r running (by simpa using shorter), Capture.picked_queue_same]
  refine Capture.Bounds.advanceWriter (w := { record := r, written := 0 }) ?_ rfl h6
  refine ⟨fun p => ?_, by simpa using hbounds.counter, by simpa using hbounds.post, fun _ => by
    simpa using hbounds.note hr, by simpa [Capture.reserved] using space,
    by simpa using Capture.picked_rotation_perm hbounds.rotation q rest⟩
  have queues : (((c.picked q rest).setQueue q
      { records := rest ++ if (c.queue q).lost = 0 then [] else [.gap q (c.queue q).lost now]
        lost := 0 }).queue p).Fits p.places true := by
    by_cases hp : p = q
    · subst hp
      rw [Capture.queue_setQueue_same]
      exact Staging.fits_gap now shorter whole
    · rw [Capture.queue_setQueue_other _ _ hp, Capture.picked_queue_other _ _ hp]
      exact fits p
  have unchanged : ∀ (d : Capture) (l : List Record) (b : Bool) (w : Option Writer),
      Capture.running { d with store := l, wrapped := b, writer := w } = d.running ∧
      Capture.queue { d with store := l, wrapped := b, writer := w } p = d.queue p := by
    intro d l b w
    cases p <;> exact ⟨rfl, rfl⟩
  rw [(unchanged _ _ _ _).1, (unchanged _ _ _ _).2, Capture.setQueue_running, running]
  exact queues

theorem State.pick_inv (s : State) (h : s.capture.Inv) : s.pick.capture.Inv := by
  by_cases hc : s.capture.running = true ∧ s.capture.writer = none ∧ s.turns.unit = false
  · obtain ⟨hr, hw, hu⟩ := hc
    by_cases hq : ∃ q r rest, s.capture.chosen = some q ∧ (s.capture.queue q).records = r :: rest
    · obtain ⟨q, r, rest, hq, hl⟩ := hq
      rw [s.pick_eq hr hw hu hq hl]
      split
      · exact h.stopFull q r rest
      · rw [State.beginRecord_eq]
        exact (h.begun hr hl s.now).countUnit
    · rw [s.pick_none (.inr fun q r rest hq' hl => hq ⟨q, r, rest, hq', hl⟩)]
      exact h
  · rwa [s.pick_none (.inl hc)]

theorem State.pickTurn_inv (s : State) (h : s.capture.Inv) : s.pickTurn.capture.Inv := by
  unfold State.pickTurn
  split
  · exact h
  · exact s.pick_inv h

/-! ### Requests of trace capture (R147, R162, R164) -/

theorem State.readTrace_inv (s : State) (h : s.capture.Inv) : s.readTrace.1.capture.Inv := by
  unfold State.readTrace
  split
  · exact h
  · next r rest hs =>
    obtain ⟨⟨hqueues, hcounter, hpost, hnote, hspace, hrotation⟩, hwriter⟩ := s.capture.inv_iff.mp h
    rw [hs, fillOf_cons] at hspace
    have space : fillOf rest + s.capture.reserved ≤ 4096 := by omega
    exact (Capture.inv_iff _).mpr ⟨⟨hqueues, hcounter, hpost, hnote, space, hrotation⟩, hwriter⟩

theorem Staging.empty_fits (places : Nat) : Staging.empty.Fits places false :=
  ⟨Nat.zero_le _, by simp [Staging.empty], Nat.zero_le _, fun _ => rfl, by simp⟩

theorem Capture.flushed_inv {c : Capture} (h : c.Inv) : c.flushed.Inv := by
  obtain ⟨hbounds, -⟩ := c.inv_iff.mp h
  refine (Capture.inv_iff _).mpr ⟨⟨fun q => ?_, hbounds.counter, ?post, ?note, ?space, .refl _⟩, ?writer⟩
  case post => simp [Capture.flushed, Capture.default]
  case note => simp [Capture.flushed, Capture.default, Capture.running]
  case space => simp [Capture.flushed, Capture.default, Capture.reserved]
  case writer => simp [Capture.flushed, Capture.default]
  cases q <;> exact Staging.empty_fits _

theorem State.flushCapture_inv (s : State) (h : s.capture.Inv) : s.flushCapture.1.capture.Inv := by
  by_cases hr : s.capture.running = true
  · rwa [s.flushCapture_running hr]
  · rw [s.flushCapture_notRunning hr]
    exact Capture.flushed_inv h

/-- Trace capture after a reset holds nothing, whatever its note (R140, R152). -/
theorem Capture.default_inv (note : Option Slot) : Capture.Inv { Capture.default with note := note } := by
  refine (Capture.inv_iff _).mpr ⟨⟨fun q => ?_, Nat.zero_le _, ?post, ?note, ?space, .refl _⟩, ?writer⟩
  case post => simp [Capture.default]
  case note => simp [Capture.default, Capture.running]
  case space => simp [Capture.default, Capture.reserved]
  case writer => simp [Capture.default]
  cases q <;> exact Staging.empty_fits _

theorem Capture.Inv.withSettings {c : Capture} (h : c.Inv) (t : TraceSettings) : (c.withSettings t).Inv := h

/-- Writing ROTATING restarts the order (R157); any other change of a setting leaves what is bounded. -/
theorem Capture.Inv.withArbiterMode {c : Capture} (h : c.Inv) (rotating : Bool) : (c.withArbiterMode rotating).Inv := by
  unfold Capture.withArbiterMode
  split
  · obtain ⟨⟨hqueues, hcounter, hpost, hnote, hspace, -⟩, hwriter⟩ := c.inv_iff.mp h
    exact (Capture.inv_iff _).mpr ⟨⟨hqueues, hcounter, hpost, hnote, hspace, .refl _⟩, hwriter⟩
  · exact h

end Sys2Proof.Machine
end

section
/-! SUPPORT. What a command can do to the state, as a chain of changes of one block each (`State.Changes`). A change
carries what its block promises: which effect of the command allows it, and which bounds it keeps. Each block's frame
and each invariant is then read off the chain, one short case analysis over the kinds of change. -/
namespace Sys2Proof.Machine

/-! ### Effects -/

/-- What a command may reach, or may undo. -/
inductive Effect where
  | shadow | tracker | checker | windows | forwarding | sequencer | capture | store | alert | cues | port
  | program | clock
  /-- PORST_N itself changes. -/
  | power
  /-- A list of what the port's pins did is used up (log entry 12). -/
  | wires
  /-- The next slot begins. -/
  | slot
  | acknowledge | clearViolations | clearCounts | softReset

/-- The commands that have an effect; power-on reset, which has all of them, is counted apart. -/
def Effect.named : Effect → Instr → Bool
  | .shadow => Instr.reachesShadow
  | .tracker => Instr.reachesTracker
  | .checker => Instr.reachesChecker
  | .windows => Instr.reachesWindows
  | .forwarding => Instr.reachesForwarding
  | .sequencer => Instr.reachesSequencer
  | .capture => Instr.reachesCapture
  | .store => Instr.reachesStore
  | .alert => Instr.reachesAlert
  | .cues => Instr.reachesCues
  | .port => Instr.reachesPort
  | .program => Instr.programs
  | .clock => Instr.setsClock
  | .power => fun _ => false
  | .wires => fun c => (c matches .slotAdvance)
  | .slot => fun c => (c matches .slotAdvance)
  | .acknowledge => fun c => (c matches .ack _)
  | .clearViolations => fun c => (c matches .clearViolations)
  | .clearCounts => fun c => (c matches .clearCounts)
  | .softReset => fun c => (c matches .softReset)

/-- The two commands of PORST_N. -/
def Instr.powersOn (c : Instr) : Bool := c matches .powerOnResetAssert | .powerOnResetRelease _

/-- The effects of a command's event: its own and, at a slot's end, those of the request that waits; power-on reset
has all. -/
def State.reach (s : State) (c : Instr) (e : Effect) : Prop :=
  Instr.powersOn c = true ∨ ∃ x ∈ s.performs c, e.named x = true

theorem State.reach_self (s : State) {c : Instr} {e : Effect} (h : e.named c = true) : s.reach c e :=
  .inr ⟨c, List.mem_cons_self, h⟩

/-- The blocks and the programming are among what power-on reset names, so that a command that spares one is none. -/
theorem State.Spares.not_reach {s : State} {c : Instr} {e : Effect}
    (hp : ∀ x, Instr.powersOn x = true → e.named x = true) (h : s.Spares e.named c) : ¬ s.reach c e := by
  rintro (hc | ⟨x, hx, hn⟩)
  · exact Bool.false_ne_true ((h c List.mem_cons_self).symm.trans (hp c hc))
  · exact Bool.false_ne_true ((h x hx).symm.trans hn)

/-! ### Changes -/

/-- One change of one block. `I` says that the tracker's entries are whole, which a record offered needs; `K` says
which effects are allowed. -/
inductive State.Change (I : Prop) (K : Effect → Prop) (s : State) : State → Prop
  | turns (u : Turns) (held : K .slot ∨ (s.turns.softReset = true → u.softReset = true)) :
      Change I K s { s with turns := u }
  | free (n : Nat) : Change I K s { s with free := n }
  | shadow (chan : ChanState) (banks : Vector Bank 16) (modes : Modes) (mrst : Bool) (allowed : K .shadow)
      (line : mrst = s.fwd.mrst ∨ K .forwarding)
      (channel : s.ChannelInv →
        State.ChannelInv
          { s with chan := chan, banks := banks, modes := modes, fwd := { s.fwd with mrst := mrst } })
      (words : s.modes.Inv → modes.Inv) :
      Change I K s { s with chan := chan, banks := banks, modes := modes, fwd := { s.fwd with mrst := mrst } }
  | tracker (l w : List Entry) (n : Nat) (allowed : K .tracker)
      (whole : s.TrackerInv → State.TrackerInv { s with tracker := l, waiting := w, nextNumber := n })
      (held : s.chan = .resetHeld → s.tracker = [] → l = []) :
      Change I K s { s with tracker := l, waiting := w, nextNumber := n }
  | checker (c : Checker) (allowed : K .checker) (rules : K .program ∨ c.rules = s.checker.rules)
      (bounds : s.checker.Inv → c.Inv)
      (first : K .clearViolations ∨ K .softReset ∨ ∀ f, s.checker.first = some f → c.first = some f)
      (counts : K .clearCounts ∨ K .softReset ∨
        (s.checker.Inv → ∀ n : Fin 22, s.checker.counts[n] ≤ c.counts[n])) :
      Change I K s { s with checker := c }
  | windows (w : Vector Window 16) (allowed : K .windows)
      (fields : K .program ∨
        ∀ k : Fin 16, w[k].fields = s.windows[k].fields ∧ w[k].locked = s.windows[k].locked)
      (locks : K .power ∨ ∀ k : Fin 16, s.windows[k].locked = true → w[k].locked = true)
      (bounds : (∀ k : Fin 16, s.windows[k].Inv) → ∀ k : Fin 16, w[k].Inv)
      (counts : K .clearCounts ∨ ∀ k : Fin 16, (K .softReset ∧ s.windows[k].locked = false) ∨
        (s.windows[k].Inv → s.windows[k].hitCount ≤ w[k].hitCount)) :
      Change I K s { s with windows := w }
  | sequencer (q : Sequencer) (allowed : K .sequencer) (stages : K .program ∨ q.stages = s.seq.stages)
      (bounds : s.SequencerInv → State.SequencerInv { s with seq := q })
      (held : s.turns.softReset = true → s.seq = Sequencer.default → q = Sequencer.default) :
      Change I K s { s with seq := q }
  | capture (c : Capture) (allowed : K .capture) (settings : K .program ∨ c.settings = s.capture.settings)
      (store : K .store ∨ c.store = s.capture.store) (bounds : I → s.capture.Inv → c.Inv) :
      Change I K s { s with capture := c }
  | alert (a : Alert) (allowed : K .alert)
      (enables : K .program ∨ a.globalOn = s.alert.globalOn ∧ a.enables = s.alert.enables)
      (latches : K .acknowledge ∨ K .softReset ∨ s.alert.latches &&& a.latches = s.alert.latches) :
      Change I K s { s with alert := a }
  | cues (v : Vector Cue 4) (allowed : K .cues)
      (fields : K .program ∨ ∀ p : Fin 4, v[p].function = s.cues[p].function ∧ v[p].out = s.cues[p].out ∧
        v[p].latch = s.cues[p].latch ∧ v[p].width = s.cues[p].width)
      (bounds : (∀ p : Fin 4, s.cues[p].Inv) → ∀ p : Fin 4, v[p].Inv) :
      Change I K s { s with cues := v }
  | settings (m : AddrMap) (b : BlindPolicy) (i : IntervalSel) (allowed : K .program)
      (bounds : s.map.Inv → m.Inv) : Change I K s { s with map := m, blind := b, interval := i }
  | forwarding (f : Forwarding) (allowed : K .forwarding) (line : f.mrst = s.fwd.mrst) :
      Change I K s { s with fwd := f }
  | port (p : Port) (allowed : K .port) (bounds : s.port.Inv → p.Inv) : Change I K s { s with port := p }
  | clock (n : Slot) (allowed : K .clock) : Change I K s { s with now := n }
  | wires (w : List (List Wire)) (allowed : K .wires) : Change I K s { s with wires := w }
  | power (b : Bool) (allowed : K .power) : Change I K s { s with porst := b }

/-- A chain of changes. -/
def State.Changes (I : Prop) (K : Effect → Prop) : State → State → Prop :=
  Relation.ReflTransGen (State.Change I K)

section
variable {I : Prop} {K : Effect → Prop} {s t u : State}

theorem State.Changes.refl (s : State) : s.Changes I K s := Relation.ReflTransGen.refl

theorem State.Changes.trans (h : s.Changes I K t) (k : t.Changes I K u) : s.Changes I K u :=
  Relation.ReflTransGen.trans h k

theorem State.Change.chain (h : s.Change I K t) : s.Changes I K t := .single h

/-- What every change keeps is kept along a chain. -/
theorem State.Changes.keeps {P : State → Prop} (step : ∀ a b : State, a.Change I K b → P a → P b)
    (h : s.Changes I K t) (hs : P s) : P t := by
  induction h with
  | refl => exact hs
  | tail _ hstep ih => exact step _ _ hstep ih

/-- A part of the state that no allowed change reaches is the same at the end of a chain. -/
theorem State.Changes.same {α : Type} {f : State → α} (step : ∀ a b : State, a.Change I K b → f b = f a)
    (h : s.Changes I K t) : f t = f s :=
  h.keeps (P := fun a => f a = f s) (fun a b hab ha => (step a b hab).trans ha) rfl

/-- More effects allow more. -/
theorem State.Change.mono {J : Effect → Prop} (hk : ∀ e, K e → J e) (h : s.Change I K t) : s.Change I J t := by
  cases h with
  | turns u held => exact .turns u (held.imp_left (hk _))
  | free n => exact .free n
  | shadow c b m r allowed line channel words =>
    exact .shadow c b m r (hk _ allowed) (line.imp_right (hk _)) channel words
  | tracker l w n allowed whole held => exact .tracker l w n (hk _ allowed) whole held
  | checker c allowed rules bounds first counts =>
    exact .checker c (hk _ allowed) (rules.imp_left (hk _)) bounds (first.imp (hk _) (.imp_left (hk _)))
      (counts.imp (hk _) (.imp_left (hk _)))
  | windows w allowed fields locks bounds counts =>
    exact .windows w (hk _ allowed) (fields.imp_left (hk _)) (locks.imp_left (hk _)) bounds
      (counts.imp (hk _) fun h k => (h k).imp_left (.imp_left (hk _)))
  | sequencer q allowed stages bounds held => exact .sequencer q (hk _ allowed) (stages.imp_left (hk _)) bounds held
  | capture c allowed settings store bounds =>
    exact .capture c (hk _ allowed) (settings.imp_left (hk _)) (store.imp_left (hk _)) bounds
  | alert a allowed enables latches =>
    exact .alert a (hk _ allowed) (enables.imp_left (hk _)) (latches.imp (hk _) (.imp_left (hk _)))
  | cues v allowed fields bounds => exact .cues v (hk _ allowed) (fields.imp_left (hk _)) bounds
  | settings m b i allowed bounds => exact .settings m b i (hk _ allowed) bounds
  | forwarding f allowed line => exact .forwarding f (hk _ allowed) line
  | port p allowed bounds => exact .port p (hk _ allowed) bounds
  | clock n allowed => exact .clock n (hk _ allowed)
  | wires w allowed => exact .wires w (hk _ allowed)
  | power b allowed => exact .power b (hk _ allowed)

theorem State.Changes.mono {J : Effect → Prop} (hk : ∀ e, K e → J e) (h : s.Changes I K t) : s.Changes I J t :=
  Relation.ReflTransGen.mono (fun _ _ hab => hab.mono hk) _ _ h

/-! ### The frame of each block -/

theorem State.Changes.pending (h : s.Changes I K t) : t.pending = s.pending :=
  h.same (f := State.pending) fun _ _ h => by cases h <;> rfl

theorem State.Changes.porst (h : s.Changes I K t) (hk : ¬ K .power) : t.porst = s.porst :=
  h.same (f := State.porst) fun _ _ h => by
    cases h with
    | power _ allowed => exact absurd allowed hk
    | _ => rfl

theorem State.Changes.wires (h : s.Changes I K t) (hk : ¬ K .wires) : t.wires = s.wires :=
  h.same (f := State.wires) fun _ _ h => by
    cases h with
    | wires _ allowed => exact absurd allowed hk
    | _ => rfl

theorem State.Changes.now (h : s.Changes I K t) (hk : ¬ K .clock) : t.now = s.now :=
  h.same (f := State.now) fun _ _ h => by
    cases h with
    | clock _ allowed => exact absurd allowed hk
    | _ => rfl

theorem State.Changes.sameShadow (h : s.Changes I K t) (hk : ¬ K .shadow) : s.SameShadow t := by
  have parts := h.same (f := fun a => (a.chan, a.banks, a.modes)) fun _ _ h => by
    cases h with
    | shadow _ _ _ _ allowed => exact absurd allowed hk
    | _ => rfl
  simpa [Prod.ext_iff] using parts

theorem State.Changes.sameTracker (h : s.Changes I K t) (hk : ¬ K .tracker) : s.SameTracker t := by
  have parts := h.same (f := fun a => (a.tracker, a.waiting, a.nextNumber)) fun _ _ h => by
    cases h with
    | tracker _ _ _ allowed => exact absurd allowed hk
    | _ => rfl
  simpa [Prod.ext_iff] using parts

theorem State.Changes.checker (h : s.Changes I K t) (hk : ¬ K .checker) : t.checker = s.checker :=
  h.same (f := State.checker) fun _ _ h => by
    cases h with
    | checker _ allowed => exact absurd allowed hk
    | _ => rfl

theorem State.Changes.windows (h : s.Changes I K t) (hk : ¬ K .windows) : t.windows = s.windows :=
  h.same (f := State.windows) fun _ _ h => by
    cases h with
    | windows _ allowed => exact absurd allowed hk
    | _ => rfl

theorem State.Changes.fwd (h : s.Changes I K t) (hk : ¬ K .forwarding) : t.fwd = s.fwd :=
  h.same (f := State.fwd) fun _ _ h => by
    cases h with
    | forwarding _ allowed => exact absurd allowed hk
    | shadow _ _ _ mrst _ line =>
      rcases line with line | allowed
      · rw [line]
      · exact absurd allowed hk
    | _ => rfl

theorem State.Changes.seq (h : s.Changes I K t) (hk : ¬ K .sequencer) : t.seq = s.seq :=
  h.same (f := State.seq) fun _ _ h => by
    cases h with
    | sequencer _ allowed => exact absurd allowed hk
    | _ => rfl

theorem State.Changes.capture (h : s.Changes I K t) (hk : ¬ K .capture) : t.capture = s.capture :=
  h.same (f := State.capture) fun _ _ h => by
    cases h with
    | capture _ allowed => exact absurd allowed hk
    | _ => rfl

theorem State.Changes.store (h : s.Changes I K t) (hk : ¬ K .store) : t.capture.store = s.capture.store :=
  h.same (f := fun a => a.capture.store) fun _ _ h => by
    cases h with
    | capture _ _ _ store => exact store.resolve_left hk
    | _ => rfl

theorem State.Changes.alert (h : s.Changes I K t) (hk : ¬ K .alert) : t.alert = s.alert :=
  h.same (f := State.alert) fun _ _ h => by
    cases h with
    | alert _ allowed => exact absurd allowed hk
    | _ => rfl

theorem State.Changes.cues (h : s.Changes I K t) (hk : ¬ K .cues) : t.cues = s.cues :=
  h.same (f := State.cues) fun _ _ h => by
    cases h with
    | cues _ allowed => exact absurd allowed hk
    | _ => rfl

theorem State.Changes.port (h : s.Changes I K t) (hk : ¬ K .port) : t.port = s.port :=
  h.same (f := State.port) fun _ _ h => by
    cases h with
    | port _ allowed => exact absurd allowed hk
    | _ => rfl

/-- Without a command that programs, what is programmed stays. -/
theorem State.Changes.sameProgram (h : s.Changes I K t) (hk : ¬ K .program) : s.SameProgram t := by
  refine h.keeps (P := fun a => s.SameProgram a) (fun a b hab hs => hs.trans ?_) (.refl s)
  have same := State.SameProgram.refl a
  obtain ⟨hmap, hblind, hrules, hwindows, hstages, hsettings, hglobal, henables, hcues, hinterval⟩ := same
  cases hab with
  | checker c _ rules =>
    exact ⟨hmap, hblind, rules.resolve_left hk, hwindows, hstages, hsettings, hglobal, henables, hcues, hinterval⟩
  | windows w _ fields =>
    exact ⟨hmap, hblind, hrules, fields.resolve_left hk, hstages, hsettings, hglobal, henables, hcues, hinterval⟩
  | sequencer q _ stages =>
    exact ⟨hmap, hblind, hrules, hwindows, stages.resolve_left hk, hsettings, hglobal, henables, hcues, hinterval⟩
  | capture c _ settings =>
    exact ⟨hmap, hblind, hrules, hwindows, hstages, settings.resolve_left hk, hglobal, henables, hcues, hinterval⟩
  | alert a _ enables =>
    obtain ⟨kglobal, kenables⟩ := enables.resolve_left hk
    exact ⟨hmap, hblind, hrules, hwindows, hstages, hsettings, kglobal, kenables, hcues, hinterval⟩
  | cues v _ fields =>
    exact ⟨hmap, hblind, hrules, hwindows, hstages, hsettings, hglobal, henables, fields.resolve_left hk, hinterval⟩
  | settings _ _ _ allowed => exact absurd allowed hk
  | _ => exact ⟨hmap, hblind, hrules, hwindows, hstages, hsettings, hglobal, henables, hcues, hinterval⟩

/-! ### Invariants along a chain -/

theorem State.Changes.trackerInv (h : s.Changes I K t) (hs : s.TrackerInv) : t.TrackerInv :=
  h.keeps (P := State.TrackerInv) (fun _ _ h hs => by
    cases h with
    | tracker _ _ _ _ whole => exact whole hs
    | _ => exact hs) hs

theorem State.Changes.captureInv (h : s.Changes I K t) (hI : I) (hs : s.capture.Inv) : t.capture.Inv :=
  h.keeps (P := fun a => a.capture.Inv) (fun _ _ h hs => by
    cases h with
    | capture _ _ _ _ bounds => exact bounds hI hs
    | _ => exact hs) hs

theorem State.Changes.sequencerInv (h : s.Changes I K t) (hs : s.SequencerInv) : t.SequencerInv :=
  h.keeps (P := State.SequencerInv) (fun _ _ h hs => by
    cases h with
    | sequencer _ _ _ bounds => exact bounds hs
    | _ => exact hs) hs

theorem State.Changes.channelInv (h : s.Changes I K t) (hs : s.ChannelInv) : t.ChannelInv :=
  h.keeps (P := State.ChannelInv) (fun a _ h hs => by
    cases h with
    | shadow _ _ _ _ _ _ channel => exact channel hs
    | tracker _ _ _ _ _ held =>
      obtain ⟨line, reset⟩ := hs
      exact ⟨line, fun hr => ⟨(reset hr).1, (reset hr).2.1, held hr (reset hr).2.2⟩⟩
    | forwarding f _ line =>
      obtain ⟨hline, reset⟩ := hs
      exact ⟨hline.trans (by rw [line]), reset⟩
    | _ => exact hs) hs

theorem State.Changes.settingsInv (h : s.Changes I K t) (hs : s.SettingsInv) : t.SettingsInv :=
  h.keeps (P := State.SettingsInv) (fun a _ h hs => by
    obtain ⟨hchecker, hwindows, hmap, hmodes, hcues⟩ := hs
    cases h with
    | shadow _ _ _ _ _ _ _ words => exact ⟨hchecker, hwindows, hmap, words hmodes, hcues⟩
    | checker _ _ _ bounds => exact ⟨bounds hchecker, hwindows, hmap, hmodes, hcues⟩
    | windows _ _ _ _ bounds => exact ⟨hchecker, bounds hwindows, hmap, hmodes, hcues⟩
    | cues _ _ _ bounds => exact ⟨hchecker, hwindows, hmap, hmodes, bounds hcues⟩
    | settings _ _ _ _ bounds => exact ⟨hchecker, hwindows, bounds hmap, hmodes, hcues⟩
    | _ => exact ⟨hchecker, hwindows, hmap, hmodes, hcues⟩) hs

theorem State.Changes.portInv (h : s.Changes I K t) (hs : s.port.Inv) : t.port.Inv :=
  h.keeps (P := fun a => a.port.Inv) (fun _ _ h hs => by
    cases h with
    | port _ _ bounds => exact bounds hs
    | _ => exact hs) hs

/-- After a soft reset the sequencer stays in its reset state until the slot ends (R126, R138). -/
theorem State.Changes.sequencerDefault (h : s.Changes I K t) (hk : ¬ K .slot) (hu : s.turns.softReset = true)
    (hs : s.seq = Sequencer.default) : t.seq = Sequencer.default :=
  (h.keeps (P := fun a => a.turns.softReset = true ∧ a.seq = Sequencer.default) (fun _ _ h hs => by
    obtain ⟨hturn, hseq⟩ := hs
    cases h with
    | turns _ held => exact ⟨(held.resolve_left hk) hturn, hseq⟩
    | sequencer _ _ _ _ held => exact ⟨hturn, held hturn hseq⟩
    | _ => exact ⟨hturn, hseq⟩) ⟨hu, hs⟩).2

/-! ### Findings along a chain -/

theorem State.Changes.latches (h : s.Changes I K t) (ha : ¬ K .acknowledge) (hr : ¬ K .softReset) :
    s.alert.latches &&& t.alert.latches = s.alert.latches :=
  h.keeps (P := fun a => s.alert.latches &&& a.alert.latches = s.alert.latches) (fun a _ h hs => by
    cases h with
    | alert b _ _ latches =>
      have kept := (latches.resolve_left ha).resolve_left hr
      simp only
      rw [← hs, BitVec.and_assoc, kept]
    | _ => exact hs) BitVec.and_self

theorem State.Changes.first (h : s.Changes I K t) (hc : ¬ K .clearViolations) (hr : ¬ K .softReset)
    {f : FirstViolation} (hf : s.checker.first = some f) : t.checker.first = some f :=
  h.keeps (P := fun a => a.checker.first = some f) (fun _ _ h hs => by
    cases h with
    | checker _ _ _ _ first => exact (first.resolve_left hc).resolve_left hr f hs
    | _ => exact hs) hf

theorem State.Changes.counts (h : s.Changes I K t) (hc : ¬ K .clearCounts) (hr : ¬ K .softReset)
    (hs : s.checker.Inv) (n : Fin 22) : s.checker.counts[n] ≤ t.checker.counts[n] :=
  (h.keeps (P := fun a => a.checker.Inv ∧ s.checker.counts[n] ≤ a.checker.counts[n]) (fun _ _ h hs => by
    obtain ⟨hinv, hle⟩ := hs
    cases h with
    | checker _ _ _ bounds _ counts =>
      exact ⟨bounds hinv, hle.trans ((counts.resolve_left hc).resolve_left hr hinv n)⟩
    | _ => exact ⟨hinv, hle⟩) ⟨hs, Nat.le_refl _⟩).2

theorem State.Changes.hitCount (h : s.Changes I K t) (hc : ¬ K .clearCounts) (hp : ¬ K .power)
    (hs : ∀ k : Fin 16, s.windows[k].Inv) (k : Fin 16) (hk : ¬ K .softReset ∨ s.windows[k].locked = true) :
    s.windows[k].hitCount ≤ t.windows[k].hitCount :=
  (h.keeps (P := fun a => (∀ k : Fin 16, a.windows[k].Inv) ∧ (¬ K .softReset ∨ a.windows[k].locked = true) ∧
      s.windows[k].hitCount ≤ a.windows[k].hitCount) (fun _ _ h hs => by
    obtain ⟨hinv, hlock, hle⟩ := hs
    cases h with
    | windows _ _ _ locks bounds counts =>
      refine ⟨bounds hinv, hlock.imp_right ((locks.resolve_left hp) k), ?_⟩
      rcases (counts.resolve_left hc) k with ⟨reset, unlocked⟩ | mono
      · rcases hlock with hlock | hlock
        · exact absurd reset hlock
        · exact absurd (hlock.symm.trans unlocked) (by decide)
      · exact hle.trans (mono (hinv k))
    | _ => exact ⟨hinv, hlock, hle⟩) ⟨hs, hk, Nat.le_refl _⟩).2.2

/-- Changes that do not reach the sequencer do not read it either: they go the same way with another one. -/
theorem State.Changes.setSeq (h : s.Changes I K t) (hk : ¬ K .sequencer) (q : Sequencer) :
    (s.setSeq q).Changes I K (t.setSeq q) := by
  refine Relation.ReflTransGen.lift (State.setSeq · q) (fun a b hab => ?_) s t h
  cases hab with
  | turns u held => exact .turns u held
  | free n => exact .free n
  | shadow c b m r allowed line channel words => exact .shadow c b m r allowed line channel words
  | tracker l w n allowed whole held => exact .tracker l w n allowed whole held
  | checker c allowed rules bounds first counts => exact .checker c allowed rules bounds first counts
  | windows w allowed fields locks bounds counts => exact .windows w allowed fields locks bounds counts
  | sequencer q allowed => exact absurd allowed hk
  | capture c allowed settings store bounds => exact .capture c allowed settings store bounds
  | alert a allowed enables latches => exact .alert a allowed enables latches
  | cues v allowed fields bounds => exact .cues v allowed fields bounds
  | settings m b i allowed bounds => exact .settings m b i allowed bounds
  | forwarding f allowed line => exact .forwarding f allowed line
  | port p allowed bounds => exact .port p allowed bounds
  | clock n allowed => exact .clock n allowed
  | wires w allowed => exact .wires w allowed
  | power b allowed => exact .power b allowed

end

end Sys2Proof.Machine
end

section
/-! SUPPORT. The tracker list as a list of whole entries (R40, R41): what each change of an entry or of the list
keeps. -/
namespace Sys2Proof.Machine

/-! ### Lists of entries -/

/-- The tracker list is whole, with `next` the number of the next entry (R40, R41). -/
structure Whole (l : List Entry) (next : Nat) : Prop where
  places : l.length ≤ 8
  order : (l.map Entry.number).Pairwise (· < ·)
  below : ∀ e ∈ l, e.number < next
  streaming : (l.filter Entry.isStreaming).length ≤ 1
  entries : ∀ e ∈ l, e.Inv

theorem State.trackerInv_iff (s : State) : s.TrackerInv ↔ Whole s.tracker s.nextNumber :=
  ⟨fun ⟨h1, h2, h3, h4, h5⟩ => ⟨h1, h2, h3, h4, h5⟩, fun ⟨h1, h2, h3, h4, h5⟩ => ⟨h1, h2, h3, h4, h5⟩⟩

theorem Whole.nil (next : Nat) : Whole [] next := by
  constructor <;> simp

theorem Whole.sublist {l m : List Entry} {next : Nat} (h : Whole l next) (hm : m.Sublist l) : Whole m next where
  places := hm.length_le.trans h.places
  order := h.order.sublist (hm.map _)
  below e he := h.below e (hm.subset he)
  streaming := (hm.filter _).length_le.trans h.streaming
  entries e he := h.entries e (hm.subset he)

/-- Entries are known by their numbers. -/
theorem Whole.eq_of_number {l : List Entry} {next : Nat} (h : Whole l next) {e f : Entry} (he : e ∈ l) (hf : f ∈ l)
    (hn : e.number = f.number) : e = f := by
  have distinct : (l.map Entry.number).Nodup := h.order.imp Nat.ne_of_lt
  exact List.inj_on_of_nodup_map distinct he hf hn

/-- Entries in order of their numbers, all STREAMING ones with one number, are at most one. -/
theorem streaming_le_one {l : List Entry} (ho : (l.map Entry.number).Pairwise (· < ·)) {k : Nat}
    (hk : ∀ e ∈ l, e.isStreaming = true → e.number = k) : (l.filter Entry.isStreaming).length ≤ 1 := by
  have order : ((l.filter Entry.isStreaming).map Entry.number).Pairwise (· < ·) :=
    ho.sublist (List.filter_sublist.map _)
  have same : ∀ n ∈ (l.filter Entry.isStreaming).map Entry.number, n = k := by
    intro n hn
    obtain ⟨e, he, rfl⟩ := List.mem_map.mp hn
    obtain ⟨hl, hs⟩ := List.mem_filter.mp he
    exact hk e hl hs
  match hm : l.filter Entry.isStreaming with
  | [] => exact Nat.zero_le 1
  | [_] => exact Nat.le_refl 1
  | a :: b :: m =>
    rw [hm] at order same
    have lt : a.number < b.number := (List.pairwise_cons.mp order).1 _ (by simp)
    rw [same a.number (by simp), same b.number (by simp)] at lt
    exact absurd lt (Nat.lt_irrefl k)

/-- The one entry that is STREAMING. -/
theorem Whole.eq_of_streaming {l : List Entry} {next : Nat} (h : Whole l next) {e f : Entry} (he : e ∈ l) (hf : f ∈ l)
    (se : e.isStreaming = true) (sf : f.isStreaming = true) : e = f := by
  have me : e ∈ l.filter Entry.isStreaming := List.mem_filter.mpr ⟨he, se⟩
  have mf : f ∈ l.filter Entry.isStreaming := List.mem_filter.mpr ⟨hf, sf⟩
  match hm : l.filter Entry.isStreaming, h.streaming with
  | [], _ => simp [hm] at me
  | [a], _ =>
    rw [hm, List.mem_singleton] at me mf
    exact me.trans mf.symm
  | _ :: _ :: _, hlen => simp at hlen

/-- Entries changed one by one, each keeping its number and starting no stream. -/
theorem Whole.map {l : List Entry} {next : Nat} (h : Whole l next) {f : Entry → Entry}
    (hn : ∀ e ∈ l, (f e).number = e.number) (hs : ∀ e ∈ l, (f e).isStreaming = true → e.isStreaming = true)
    (hi : ∀ e ∈ l, e.Inv → (f e).Inv) : Whole (l.map f) next where
  places := by simpa using h.places
  order := by
    have numbers : (l.map f).map Entry.number = l.map Entry.number := by
      rw [List.map_map]
      exact List.map_congr_left hn
    exact numbers ▸ h.order
  below e he := by
    obtain ⟨x, hx, rfl⟩ := List.mem_map.mp he
    exact (hn x hx).symm ▸ h.below x hx
  streaming := by
    have fewer : (l.filter (Entry.isStreaming ∘ f)).length ≤ (l.filter Entry.isStreaming).length := by
      rw [← List.countP_eq_length_filter, ← List.countP_eq_length_filter]
      exact List.countP_mono_left fun e he => hs e he
    rw [List.filter_map, List.length_map]
    exact fewer.trans h.streaming
  entries e he := by
    obtain ⟨x, hx, rfl⟩ := List.mem_map.mp he
    exact hi x hx (h.entries x hx)

/-- The entry of one number changed. -/
def updateAt (number : Nat) (f : Entry → Entry) (e : Entry) : Entry := if e.number == number then f e else e

theorem State.updateEntry_eq (s : State) (number : Nat) (f : Entry → Entry) :
    s.updateEntry number f = { s with tracker := s.tracker.map (updateAt number f) } := rfl

/-- A member of the list changed, keeping its number and starting no stream. -/
theorem Whole.update {l : List Entry} {next : Nat} (h : Whole l next) {e : Entry} (he : e ∈ l) {f : Entry → Entry}
    (hn : (f e).number = e.number) (hs : (f e).isStreaming = true → e.isStreaming = true) (hi : e.Inv → (f e).Inv) :
    Whole (l.map (updateAt e.number f)) next := by
  have cases (x : Entry) (hx : x ∈ l) : x = e ∧ updateAt e.number f x = f e ∨ updateAt e.number f x = x := by
    by_cases hxe : x.number = e.number
    · have same : x = e := h.eq_of_number hx he hxe
      exact .inl ⟨same, by simp [updateAt, same]⟩
    · exact .inr (by simp [updateAt, hxe])
  refine h.map (fun x hx => ?_) (fun x hx => ?_) (fun x hx => ?_) <;>
    obtain ⟨rfl, eq⟩ | eq := cases x hx <;> rw [eq]
  · exact hn
  · exact hs
  · exact id
  · exact hi
  · exact id

/-- A new entry joins the list as its newest (R43). -/
theorem Whole.append {l : List Entry} {next : Nat} (h : Whole l next) (hl : l.length < 8) {e : Entry}
    (hn : e.number = next) (hs : e.isStreaming = false) (hi : e.Inv) : Whole (l ++ [e]) (next + 1) where
  places := by simpa using hl
  order := by
    rw [List.map_append, List.pairwise_append]
    refine ⟨h.order, by simp, fun a ha b hb => ?_⟩
    obtain ⟨x, hx, rfl⟩ := List.mem_map.mp ha
    have hb : b = e.number := by simpa using hb
    exact hb ▸ hn ▸ h.below x hx
  below x hx := by
    rcases List.mem_append.mp hx with hx | hx
    · exact Nat.lt_succ_of_lt (h.below x hx)
    · rw [List.mem_singleton.mp hx, hn]
      exact Nat.lt_succ_self next
  streaming := by
    rw [List.filter_append, show [e].filter Entry.isStreaming = [] by simp [hs], List.append_nil]
    exact h.streaming
  entries x hx := by
    rcases List.mem_append.mp hx with hx | hx
    · exact h.entries x hx
    · rw [List.mem_singleton.mp hx]
      exact hi

/-- The entry that is to stream from now on. -/
def Entry.streams (cut : Bool) (e : Entry) : Entry := { e with phase := .streaming, cutFlag := e.cutFlag || cut }

theorem Entry.Inv.streams {e : Entry} (h : e.Inv) (cut : Bool) : (e.streams cut).Inv := by
  obtain ⟨hrow, hbeats, hphase, hcap, hread⟩ := h
  exact ⟨hrow, hbeats, fun hne => absurd rfl hne, hcap, hread⟩

/-- The entry of number `number` takes the bus and every other streaming entry leaves the list (R48, R49). -/
theorem Whole.takeBus {l : List Entry} {next : Nat} (h : Whole l next) (number : Nat) (cut : Bool) {p : Entry → Bool}
    (hp : ∀ e ∈ l, e.number ≠ number → e.isStreaming = true → p e = false) :
    Whole ((l.map (updateAt number (Entry.streams cut))).filter p) next := by
  have keepsNumber (x : Entry) : (updateAt number (Entry.streams cut) x).number = x.number := by
    unfold updateAt; split <;> rfl
  have order : ((l.map (updateAt number (Entry.streams cut))).map Entry.number).Pairwise (· < ·) := by
    simpa [Function.comp_def, keepsNumber] using h.order
  refine ⟨?_, order.sublist (List.filter_sublist.map _), fun e he => ?_,
    streaming_le_one (k := number) (order.sublist (List.filter_sublist.map _)) fun e he hs => ?_, fun e he => ?_⟩
  · exact List.filter_sublist.length_le.trans (by simpa using h.places)
  · obtain ⟨x, hx, rfl⟩ := List.mem_map.mp (List.mem_filter.mp he).1
    exact (keepsNumber x).symm ▸ h.below x hx
  · obtain ⟨he, hpe⟩ := List.mem_filter.mp he
    obtain ⟨x, hx, rfl⟩ := List.mem_map.mp he
    by_contra hne
    rw [keepsNumber] at hne
    have same : updateAt number (Entry.streams cut) x = x := if_neg (by simpa using hne)
    rw [same] at hs hpe
    exact Bool.false_ne_true ((hp x hx hne hs).symm.trans hpe)
  · obtain ⟨x, hx, rfl⟩ := List.mem_map.mp (List.mem_filter.mp he).1
    unfold updateAt
    split
    · exact (h.entries x hx).streams cut
    · exact h.entries x hx

/-! ### Entries -/

theorem BurstLen.beats_eq (l : BurstLen) : l.beats = 2 * l.slots := by cases l <;> rfl

theorem BurstLen.beats_le (l : BurstLen) : l.beats ≤ 8 := by cases l <;> decide

theorem Entry.Inv.makeVoid {e : Entry} (h : e.Inv) (hs : e.isStreaming = true)
    (hb : e.beatsSeen + 2 ≤ e.len.beats) : e.makeVoid.Inv := by
  obtain ⟨hrow, -, -, hcap, hread⟩ := h
  refine ⟨hrow, hb, fun hne => absurd (eq_of_beq hs) hne, fun l hl => ?_, hread⟩
  obtain ⟨m, hm, rfl⟩ := Option.map_eq_some_iff.mp hl
  simp [hcap m hm, Entry.makeVoid, Entry.append]

theorem Entry.Inv.attribute {e : Entry} (h : e.Inv) (hs : e.isStreaming = true) (w : Vector Window 16)
    (b0 b1 : WriteBeat) (hb : e.beatsSeen + 2 ≤ e.len.beats) : (e.attribute w b0 b1).Inv := by
  obtain ⟨hrow, -, -, hcap, hread⟩ := h
  refine ⟨hrow, hb, fun hne => absurd (eq_of_beq hs) hne, fun l hl => ?_, hread⟩
  obtain ⟨m, hm, rfl⟩ := Option.map_eq_some_iff.mp hl
  simp [hcap m hm, Entry.attribute, Entry.append]

theorem Entry.Inv.withoutBeats {e : Entry} (h : e.Inv) (sat : WindowSet) : (e.withoutBeats sat).Inv := by
  obtain ⟨hrow, hbeats, hphase, hcap, hread⟩ := h
  refine ⟨hrow, (Nat.sub_le _ _).trans hbeats, fun hne => ?_, fun l hl => ?_, hread⟩
  · change e.beatsSeen - 2 = 0
    rw [hphase hne]
  · obtain ⟨m, hm, rfl⟩ := Option.map_eq_some_iff.mp hl
    change (m.take (e.beatsSeen - 2)).length = e.beatsSeen - 2
    rw [List.length_take, hcap m hm]
    exact Nat.min_eq_left (Nat.sub_le _ _)

theorem Entry.Inv.classify {e : Entry} (h : e.Inv) (on : Bool) (i : Nat) (g0 g1 : LaneSet) :
    (e.classify on i g0 g1).Inv := by
  obtain ⟨hrow, hbeats, hphase, hcap, hread⟩ := h
  exact ⟨hrow, hbeats, hphase, hcap, fun hk => ⟨(hread hk).1, by simp [Entry.classify, (hread hk).2]⟩⟩

/-- The guard gives a WRITE its masks and its account, and changes nothing else of it. -/
theorem State.guardEntry_eq (s : State) (e : Entry) :
    s.guardEntry e = { e with guard := (s.guardEntry e).guard, account := (s.guardEntry e).account } := by
  unfold State.guardEntry
  split
  · rfl
  · simp only
    split
    · split <;> rfl
    · rfl

/-- The entry with what the guard gives a WRITE at its effect slot (R105, R106). -/
def State.guarded (s : State) (e : Entry) : Entry :=
  match e.kind with
  | .write => s.guardEntry e
  | .read => e

theorem State.guarded_eq (s : State) (e : Entry) :
    s.guarded e = { e with guard := (s.guarded e).guard, account := (s.guarded e).account } := by
  unfold State.guarded
  split
  · exact s.guardEntry_eq e
  · rfl

/-- What the effect slot leaves of an entry (R46). -/
theorem State.effectEntry_eq (s : State) (e : Entry) :
    s.effectEntry e =
      { e with
        phase := .waiting, candidates := (s.effectEntry e).candidates, hits := (s.effectEntry e).hits
        satisfied := 0, captured := (s.effectEntry e).captured, guard := (s.guarded e).guard
        account := (s.guarded e).account } := by
  have of (g : Entry) (hg : g = { e with guard := g.guard, account := g.account }) (c h : WindowSet)
      (l : Option (List CapturedBeat)) :
      { g with phase := .waiting, candidates := c, hits := h, satisfied := 0, captured := l } =
        { e with
          phase := .waiting, candidates := c, hits := h, satisfied := 0, captured := l
          guard := g.guard, account := g.account } := by
    rw [hg]
  exact of _ (s.guarded_eq e) _ _ _

theorem Entry.Inv.effectEntry {e : Entry} (h : e.Inv) (hp : e.isPosted = true) (s : State) :
    (s.effectEntry e).Inv := by
  obtain ⟨hrow, hbeats, hphase, -, hread⟩ := h
  have posted : e.phase = .posted := eq_of_beq hp
  have unseen : e.beatsSeen = 0 := hphase (by rw [posted]; decide)
  have captured : ∀ l ∈ (s.effectEntry e).captured, l.length = 0 := by
    intro l hl
    unfold State.effectEntry at hl
    simp only at hl
    split at hl
    · rw [← Option.some.inj hl, List.length_nil]
    · cases hl
  have read : e.kind = .read → s.guarded e = e := by
    intro hk
    simp [State.guarded, hk]
  rw [s.effectEntry_eq e]
  refine ⟨hrow, hbeats, fun _ => unseen, fun l hl => (captured l hl).trans unseen.symm, fun hk => ?_⟩
  change (s.guarded e).guard = [] ∧ (s.guarded e).account = .none
  rw [read hk]
  exact hread hk

theorem State.effectEntry_number (s : State) (e : Entry) : (s.effectEntry e).number = e.number := by
  rw [s.effectEntry_eq e]

theorem State.effectEntry_notStreaming (s : State) (e : Entry) : (s.effectEntry e).isStreaming = false := by
  rw [s.effectEntry_eq e]
  rfl

theorem State.newEntry_inv (s : State) (kind : AccessKind) (b : BankNo) (column : Col) (ac : Bool) (t : Timing) :
    (s.newEntry kind b column ac t).Inv :=
  ⟨rfl, Nat.zero_le _, fun _ => rfl, nofun, fun _ => ⟨rfl, rfl⟩⟩

/-! ### Entries found in the list -/

theorem State.entry?_mem {s : State} {number : Nat} {e : Entry} (h : s.entry? number = some e) :
    e ∈ s.tracker ∧ e.number = number :=
  ⟨List.mem_of_find?_eq_some h, by simpa using List.find?_some h⟩

theorem State.streamer_mem {s : State} {e : Entry} (h : s.streamer = some e) :
    e ∈ s.tracker ∧ e.isStreaming = true :=
  ⟨List.mem_of_find?_eq_some h, List.find?_some h⟩

theorem State.holder_eq_some {s : State} {t : Slot} {e : Entry} :
    s.holder t = some e ↔ s.streamer = some e ∧ e.covers t = true := by
  unfold State.holder
  split
  · next x hx =>
    rw [hx]
    split
    · next hc =>
      refine ⟨fun h => ⟨h, ?_⟩, fun h => h.1⟩
      rwa [← Option.some.inj h]
    · next hc =>
      refine ⟨nofun, fun ⟨h, he⟩ => ?_⟩
      rw [← Option.some.inj h] at he
      exact absurd he hc
  · next hx => simp [hx]

theorem State.openHolder_eq_some {s : State} {kind : AccessKind} {t : Slot} {e : Entry} :
    s.openHolder kind t = some e ↔ s.holder t = some e ∧ e.kind = kind ∧ e.unresolved t = true := by
  unfold State.openHolder
  split
  · next x hx =>
    rw [hx]
    split
    · next hc =>
      refine ⟨fun h => ⟨h, ?_⟩, fun h => h.1⟩
      rwa [← Option.some.inj h]
    · next hc =>
      refine ⟨nofun, fun ⟨h, he⟩ => ?_⟩
      rw [← Option.some.inj h] at he
      exact absurd he hc
  · next hx => simp [hx]

/-- A holder whose slot is unresolved has two positions left (R50). -/
theorem Entry.beatsSeen_of_unresolved {e : Entry} {t : Slot} (hc : e.covers t = true) (hu : e.unresolved t = true) :
    e.beatsSeen + 2 ≤ e.len.beats := by
  have hslot : e.slotIndex t < e.len.slots := by simpa [Entry.covers] using hc
  have hbeats : e.beatsSeen = 2 * e.slotIndex t := by simpa [Entry.unresolved] using hu
  rw [hbeats, e.len.beats_eq]
  omega

theorem State.openHolder_room {s : State} {kind : AccessKind} {t : Slot} {e : Entry}
    (h : s.openHolder kind t = some e) :
    e ∈ s.tracker ∧ e.isStreaming = true ∧ e.beatsSeen + 2 ≤ e.len.beats := by
  obtain ⟨hholder, -, hu⟩ := State.openHolder_eq_some.mp h
  obtain ⟨hstreamer, hc⟩ := State.holder_eq_some.mp hholder
  obtain ⟨hmem, hs⟩ := State.streamer_mem hstreamer
  exact ⟨hmem, hs, Entry.beatsSeen_of_unresolved hc hu⟩

end Sys2Proof.Machine
end

section
/-! SUPPORT. The operations that hand an event over as chains of changes: offers, pulse requests, hits, reports, the
hand-over of a retired entry. -/
namespace Sys2Proof.Machine

/-- The effects of handing out occurrences and records. -/
structure Hands (K : Effect → Prop) : Prop where
  sequencer : K .sequencer
  capture : K .capture
  alert : K .alert

/-- The effects of an access that takes effect or retires. -/
structure Tracks (K : Effect → Prop) : Prop extends Hands K where
  tracker : K .tracker
  windows : K .windows
  cues : K .cues

/-- The records fit into a staging queue whole. -/
def Offers.Short (o : Offers) : Prop := ∀ r ∈ o.records, r.length ≤ 6

section
variable {I : Prop} {K : Effect → Prop}

/-- A chain followed by one that needs the tracker list whole. -/
theorem State.Changes.andThen {s t u : State} (h : s.Changes I K t) (hI : I → s.TrackerInv)
    (k : (I → t.TrackerInv) → t.Changes I K u) : s.Changes I K u :=
  h.trans (k fun hi => h.trackerInv (hI hi))

/-! ### Latches and offers -/

theorem State.setLatch_changes (s : State) (c : Cause) (ha : K .alert) : s.Changes I K (s.setLatch c) := by
  have kept (a b : CauseSet) : a &&& (a ||| b) = a := by
    ext i
    simpa using Or.inl
  exact (State.Change.alert (s := s) { s.alert with latches := s.alert.latches ||| c.set } ha (.inr ⟨rfl, rfl⟩)
    (.inr (.inr (kept _ _)))).chain

theorem State.setLatchIf_changes (s : State) (c : Cause) (b : Bool) (ha : K .alert) :
    s.Changes I K (s.setLatchIf c b) := by
  cases b
  · exact .refl s
  · exact s.setLatch_changes c ha

theorem State.offer_changes (s : State) (q : QueueId) (r : Record) (hc : K .capture) (ha : K .alert)
    (hr : I → r.length ≤ 6) : s.Changes I K (s.offer q r) := by
  have staged (x : Staging) (hx : I → s.capture.Inv → (s.capture.setQueue q x).Inv) :
      s.Changes I K (s.setCapture (s.capture.setQueue q x)) :=
    (State.Change.capture _ hc (.inr (by simp)) (.inr (by simp)) hx).chain
  by_cases hrun : s.capture.running = true
  · by_cases hl : (s.capture.queue q).records.length < q.places
    · have inv hi h := s.offer_inv q r h (hr hi)
      rw [s.offer_place q r hrun hl] at inv ⊢
      exact staged _ inv
    · have inv hi h := s.offer_inv q r h (hr hi)
      rw [s.offer_lost q r hrun hl] at inv ⊢
      exact (staged _ (by simpa using inv)).trans (State.setLatchIf_changes _ _ _ ha)
  · rw [s.offer_stopped q r (by simpa using hrun)]
    exact .refl s

theorem State.offerEvent_changes (s : State) (r : Record) (hc : K .capture) (ha : K .alert)
    (hr : r.length ≤ 6) : s.Changes I K (s.offerEvent r) := by
  unfold State.offerEvent
  split
  · exact s.offer_changes _ _ hc ha fun _ => hr
  · exact .refl s

theorem State.offerEvents_changes (s : State) (rs : List Record) (hc : K .capture) (ha : K .alert)
    (hr : ∀ r ∈ rs, r.length ≤ 6) : s.Changes I K (s.offerEvents rs) := by
  induction rs generalizing s with
  | nil => exact .refl s
  | cons r rs ih =>
    exact (s.offerEvent_changes r hc ha (hr r (by simp))).trans (ih _ fun x hx => hr x (by simp [hx]))

theorem State.offerOccurrence_changes (s : State) (o : Occurrence) (hs : K .sequencer) (ha : K .alert) :
    s.Changes I K (s.offerOccurrence o) := by
  unfold State.offerOccurrence
  split
  · next hu =>
    obtain ⟨harmed, hused⟩ := hu
    split
    · next hl =>
      refine (State.Change.sequencer (s := s) { s.seq with queue := s.seq.queue ++ [o] } hs (.inr rfl) ?bounds
        ?held).chain
      case bounds =>
        rintro ⟨-, -, -, armed, uses, table⟩
        have place : (s.seq.queue ++ [o]).length ≤ 16 := by
          rw [List.length_append]
          exact hl
        refine ⟨place, by simp [harmed], by simp [harmed], armed, fun x hx => ?_, table⟩
        rcases List.mem_append.mp hx with hx | hx
        · exact uses x hx
        · rw [List.mem_singleton.mp hx]
          exact List.any_eq_true.mp hused
      case held =>
        intro _ hd
        rw [hd] at harmed
        exact absurd harmed (by decide)
    · exact s.setLatch_changes _ ha
  · exact .refl s

theorem State.offerOccurrences_changes (s : State) (os : List Occurrence) (hs : K .sequencer) (ha : K .alert) :
    s.Changes I K (s.offerOccurrences os) := by
  induction os generalizing s with
  | nil => exact .refl s
  | cons o os ih => exact (s.offerOccurrence_changes o hs ha).trans (ih _)

theorem State.handOut_changes (s : State) (o : Offers) (hk : Hands K) (ho : o.Short) :
    s.Changes I K (s.handOut o) :=
  (s.offerOccurrences_changes _ hk.sequencer hk.alert).trans
    (State.offerEvents_changes _ _ hk.capture hk.alert ho)

theorem State.join_changes (s : State) (a b : Offers) : s.Changes I K (s.join a b).1 :=
  (State.Change.free _).chain

theorem State.join_short (s : State) {a b : Offers} (ha : a.Short) (hb : b.Short) : (s.join a b).2.Short := by
  intro r hr
  rcases List.mem_append.mp ((merged_perm _ _ _).mem_iff.mp hr) with hr | hr
  · exact ha r hr
  · exact hb r hr

theorem Offers.short_occurrences (os : List Occurrence) : Offers.Short { occurrences := os, records := [] } := by
  simp [Offers.Short]

theorem Offers.short_none : Offers.none.Short := Offers.short_occurrences []

theorem Offers.short_single (os : List Occurrence) (r : Record) (hr : r.length = 1) :
    Offers.Short { occurrences := os, records := [r] } := by
  intro x hx
  rw [List.mem_singleton.mp hx, hr]
  decide

/-! ### Pulses and hits -/

theorem Vector.forall_set {α : Type} {n : Nat} {v : Vector α n} {P : α → Prop} (h : ∀ k : Fin n, P v[k]) (i : Nat)
    (hi : i < n) {x : α} (hx : P x) (k : Fin n) : P (v.set i x hi)[k] := by
  by_cases hk : i = k.val
  · simpa [hk] using hx
  · simpa [Vector.getElem_set_ne, hk] using h k

theorem State.setCue_changes (s : State) (p : PinNo) (c : Cue) (hk : K .cues)
    (hf : K .program ∨ c.function = (s.cue p).function ∧ c.out = (s.cue p).out ∧ c.latch = (s.cue p).latch ∧
      c.width = (s.cue p).width)
    (hi : (s.cue p).Inv → c.Inv) : s.Changes I K (s.setCue p c) := by
  refine (State.Change.cues _ hk (hf.imp_right ?_) ?_).chain
  · rintro ⟨hf, ho, hl, hw⟩
    obtain ⟨-, -, -, -, -, -, -, -, hcues, -⟩ := (s.setCue_step p c hf ho hl hw).2
    exact hcues
  · exact fun h k => Vector.forall_set h _ p.isLt (hi (h ⟨p.toNat, p.isLt⟩)) k

theorem State.requestPulse_changes (s : State) (f : CueFunction) (p : PinNo) (hk : K .cues)
    (hf : f = .seqCue ∨ f = .windowCue) : s.Changes I K (s.requestPulse f p) := by
  unfold State.requestPulse
  simp only
  split
  · next hs =>
    refine s.setCue_changes p _ hk (.inr ⟨rfl, rfl, rfl, rfl⟩) fun ⟨hwidth, _, _, _⟩ => ?_
    exact ⟨hwidth, Nat.le_of_lt_succ (s.cue p).width.isLt, fun _ => rfl, fun _ => hs ▸ hf⟩
  · exact .refl s

theorem countHits_get (windows : Vector Window 16) (hits : WindowSet) (k : Fin 16) :
    (countHits windows hits)[k] =
      if hits.getLsbD k.val && windows[k].fields.actions.count then windows[k].countHit else windows[k] := by
  simp only [countHits, Fin.getElem_fin, Vector.getElem_ofFn]

theorem State.countHits_changes (s : State) (hits : WindowSet) (hw : K .windows) :
    s.Changes I K { s with windows := countHits s.windows hits } := by
  refine (State.Change.windows _ hw (.inr (countHits_program s.windows hits)) (.inr fun k hk => ?_) (fun h k => ?_)
    (.inr fun k => .inr fun h => ?_)).chain
  · rw [(countHits_program s.windows hits k).2, hk]
  · rw [countHits_get]
    split
    · obtain ⟨hrange, -, hdata⟩ := h k
      exact ⟨hrange, Nat.min_le_right _ _, hdata⟩
    · exact h k
  · rw [countHits_get]
    split
    · exact Nat.le_min.mpr ⟨Nat.le_succ _, h.2.1⟩
    · exact Nat.le_refl _

theorem State.hitEffects_changes (s : State) (hits : WindowSet) (hw : K .windows) (hc : K .cues) :
    s.Changes I K (s.hitEffects hits).1 := by
  have fold (l : List (Fin 16)) (pin : Fin 16 → PinNo) (t : State) :
      t.Changes I K (l.foldl (fun t k => t.requestPulse .windowCue (pin k)) t) := by
    induction l generalizing t with
    | nil => exact .refl t
    | cons k l ih => exact (t.requestPulse_changes _ _ hc (.inr rfl)).trans (ih _)
  exact (s.countHits_changes hits hw).trans (fold _ _ _)

/-! ### Reports and accounts -/

theorem State.report_changes (s : State) (r : GuardRec) (ha : K .alert) : s.Changes I K (s.report r).1 :=
  ((s.setLatchIf_changes _ _ ha).trans (State.setLatchIf_changes _ _ _ ha)).trans
    (State.setLatchIf_changes _ _ _ ha)

theorem State.report_short (s : State) (r : GuardRec) : (s.report r).2.Short := Offers.short_single _ _ rfl

theorem State.closeAccount_changes (s : State) (e : Entry) (ha : K .alert) :
    s.Changes I K (s.closeAccount e).1 := by
  unfold State.closeAccount
  split
  · exact .refl s
  · split
    · exact s.report_changes _ ha
    · exact .refl s

theorem State.closeAccount_short (s : State) (e : Entry) : (s.closeAccount e).2.Short := by
  unfold State.closeAccount
  split
  · exact Offers.short_none
  · split
    · exact s.report_short _
    · exact Offers.short_none

/-- The retired entries that wait do not bear on the list. -/
theorem State.waiting_changes (s : State) (w : List Entry) (ht : K .tracker) :
    s.Changes I K { s with waiting := w } :=
  (State.Change.tracker s.tracker w s.nextNumber ht (fun h => h) fun _ h => h).chain

theorem State.retireAccount_changes (s : State) (e : Entry) (ht : K .tracker) (ha : K .alert) :
    s.Changes I K (s.retireAccount e).1 := by
  unfold State.retireAccount
  split
  · exact s.waiting_changes _ ht
  · exact s.closeAccount_changes e ha

theorem State.retireAccount_short (s : State) (e : Entry) : (s.retireAccount e).2.Short := by
  unfold State.retireAccount
  split
  · exact Offers.short_none
  · exact s.closeAccount_short e

/-! ### The hand-over (R53) -/

/-- A whole entry's ACCESS record has at most 6 units (R149). -/
theorem State.accessRecord_length (s : State) {e : Entry} (h : e.Inv) (o : RetireOutcome) :
    (s.accessRecord e o).length ≤ 6 := by
  obtain ⟨-, hbeats, -, hcap, -⟩ := h
  have elements : (e.captured.getD []).length ≤ 8 := by
    cases hl : e.captured with
    | none => exact Nat.zero_le 8
    | some l => exact (hcap l (by simp [hl])).trans_le (hbeats.trans e.len.beats_le)
  have bound (b : Bool) :
      (if b = true then (e.captured.getD []).map fun x => (x, e.guard.getD x.position 0) else []).length ≤ 8 := by
    split
    · simpa using elements
    · exact Nat.zero_le 8
  have six (m : Nat) (p : Prop) [Decidable p] (hm : m ≤ 8) : 1 + (if p then 1 else 0) + (m + 1) / 2 ≤ 6 := by
    split <;> omega
  exact six _ _ (bound _)

theorem State.offerAccess_changes (s : State) (hits : WindowSet) (r : Record) (hc : K .capture) (ha : K .alert)
    (hr : I → r.length ≤ 6) : s.Changes I K (s.offerAccess hits r) := by
  unfold State.offerAccess
  split
  · exact s.offer_changes _ _ hc ha hr
  · exact .refl s

/-- The entry with the hits decided at its retirement (R97). -/
def State.lateEntry (s : State) (e : Entry) : Entry := { e with hits := e.hits ||| s.lateHits e }

/-- The hand-over without its offers: late hits, the ACCESS record, the account (R53). -/
def State.handing (s : State) (e : Entry) (o : RetireOutcome) : State × Offers :=
  let hit := (s.hitEffects (s.lateHits e)).1
  (hit.offerAccess (s.lateEntry e).hits (hit.accessRecord (s.lateEntry e) o)).retireAccount (s.lateEntry e)

theorem State.handOver_eq (s : State) (e : Entry) (o : RetireOutcome) :
    s.handOver e o =
      (s.handing e o).1.join { occurrences := (s.hitEffects (s.lateHits e)).2, records := [] } (s.handing e o).2 := rfl

theorem State.handing_changes (s : State) (e : Entry) (o : RetireOutcome) (hk : Tracks K) (he : I → e.Inv) :
    s.Changes I K (s.handing e o).1 := by
  have late : I → (s.lateEntry e).Inv := he
  unfold State.handing
  exact ((s.hitEffects_changes _ hk.windows hk.cues).trans
    (State.offerAccess_changes _ _ _ hk.capture hk.alert fun hi => State.accessRecord_length _ (late hi) o)).trans
    (State.retireAccount_changes _ _ hk.tracker hk.alert)

theorem State.handOver_changes (s : State) (e : Entry) (o : RetireOutcome) (hk : Tracks K) (he : I → e.Inv) :
    s.Changes I K (s.handOver e o).1 := by
  rw [s.handOver_eq]
  exact (s.handing_changes e o hk he).trans (State.join_changes _ _ _)

theorem State.handOver_short (s : State) (e : Entry) (o : RetireOutcome) : (s.handOver e o).2.Short := by
  rw [s.handOver_eq]
  exact State.join_short _ (Offers.short_occurrences _) (State.retireAccount_short _ _)

/-- The state that an entry leaves is handed over (R53). -/
theorem State.retire_changes {s t : State} {e : Entry} (h : s.Changes I K (t.dropEntry e.number))
    (o : RetireOutcome) (hk : Tracks K) (he : I → e.Inv) : s.Changes I K (t.retire e o) :=
  (h.trans (State.handOver_changes _ e o hk he)).trans
    (State.handOut_changes _ _ hk.toHands (State.handOver_short _ e o))

/-- One entry more of those abandoned (R56 to R58). -/
def abandonOne (p : State × Offers) (e : Entry) : State × Offers :=
  (p.1.handOver e .abandoned).1.join p.2 (p.1.handOver e .abandoned).2

theorem State.abandonAll_eq (s : State) :
    s.abandonAll = s.tracker.foldl abandonOne ({ s with tracker := [] }, Offers.none) := rfl

theorem abandonOne_changes (l : List Entry) (p : State × Offers) (hk : Tracks K) (hl : I → ∀ e ∈ l, e.Inv) :
    p.1.Changes I K (l.foldl abandonOne p).1 := by
  induction l generalizing p with
  | nil => exact .refl _
  | cons e l ih =>
    exact ((p.1.handOver_changes e .abandoned hk fun hi => hl hi e (by simp)).trans (State.join_changes _ _ _)).trans
      (ih _ fun hi x hx => hl hi x (by simp [hx]))

theorem abandonOne_short (l : List Entry) (p : State × Offers) (hp : p.2.Short) : (l.foldl abandonOne p).2.Short := by
  induction l generalizing p with
  | nil => exact hp
  | cons e l ih => exact ih _ (State.join_short _ hp (State.handOver_short _ _ _))

theorem State.abandonWith_eq (s : State) (o : Offers) :
    s.abandonWith o =
      (s.abandonAll.1.join s.abandonAll.2 o).1.handOut (s.abandonAll.1.join s.abandonAll.2 o).2 := rfl

/-- From a state with its list emptied: the entries that stood in it are handed over, with what is given beside. -/
theorem State.abandonWith_changes {s t : State} (h : s.Changes I K { t with tracker := [] }) (o : Offers)
    (hk : Tracks K) (ho : o.Short) (hl : I → ∀ e ∈ t.tracker, e.Inv) : s.Changes I K (t.abandonWith o) := by
  have abandoned : s.Changes I K t.abandonAll.1 := by
    rw [t.abandonAll_eq]
    exact h.trans (abandonOne_changes t.tracker ({ t with tracker := [] }, Offers.none) hk hl)
  have short : t.abandonAll.2.Short := by
    rw [t.abandonAll_eq]
    exact abandonOne_short t.tracker ({ t with tracker := [] }, Offers.none) Offers.short_none
  rw [t.abandonWith_eq]
  exact (abandoned.trans (State.join_changes _ _ _)).trans
    (State.handOut_changes _ _ hk.toHands (State.join_short _ short ho))

end

end Sys2Proof.Machine
end

section
/-! SUPPORT. The tracker's events, the beats and forwarding, the sequencer's events and trace capture's as chains of
changes. -/
namespace Sys2Proof.Machine

section
variable {I : Prop} {K : Effect → Prop}

/-! ### One block replaced -/

theorem State.turns_changes (s : State) (u : Turns)
    (h : K .slot ∨ (s.turns.softReset = true → u.softReset = true)) : s.Changes I K { s with turns := u } :=
  (State.Change.turns (s := s) u h).chain

/-- A turn used up is none of a soft reset. -/
theorem State.turn_changes (s : State) (u : Turns) (h : u.softReset = s.turns.softReset) :
    s.Changes I K { s with turns := u } :=
  s.turns_changes u (.inr fun hs => h.trans hs)

theorem State.fwd_changes (s : State) (f : Forwarding) (hk : K .forwarding) (h : f.mrst = s.fwd.mrst) :
    s.Changes I K { s with fwd := f } :=
  (State.Change.forwarding (s := s) f hk h).chain

/-- The tracker list replaced, with the entries that wait and the next number as they are. -/
theorem State.tracker_changes (s : State) (l : List Entry) (hk : K .tracker)
    (hw : Whole s.tracker s.nextNumber → Whole l s.nextNumber) (he : s.tracker = [] → l = []) :
    s.Changes I K { s with tracker := l } :=
  (State.Change.tracker (s := s) l s.waiting s.nextNumber hk
    (fun h => (State.trackerInv_iff _).mpr (hw (s.trackerInv_iff.mp h))) fun _ h => he h).chain

/-- A member of the list changed, keeping its number and starting no stream. -/
theorem State.updateEntry_changes (s : State) {e : Entry} (he : e ∈ s.tracker) (f : Entry → Entry) (hk : K .tracker)
    (hn : (f e).number = e.number) (hs : (f e).isStreaming = true → e.isStreaming = true)
    (hi : e.Inv → (f e).Inv) : s.Changes I K (s.updateEntry e.number f) :=
  s.tracker_changes _ hk (fun h => h.update he hn hs hi) fun h => by simp [h]

theorem State.dropEntry_changes (s : State) (number : Nat) (hk : K .tracker) :
    s.Changes I K (s.dropEntry number) :=
  s.tracker_changes _ hk (fun h => h.sublist List.filter_sublist) fun h => by simp [h]

/-! ### The effect slot -/

theorem State.takeEffect_changes (s : State) {e : Entry} (he : e ∈ s.tracker) (hp : e.isPosted = true)
    (hk : Tracks K) : s.Changes I K (s.takeEffect e).1 :=
  (s.updateEntry_changes he (fun _ => s.effectEntry e) hk.tracker (s.effectEntry_number e)
    (fun h => absurd ((s.effectEntry_notStreaming e).symm.trans h) Bool.false_ne_true)
    fun h => h.effectEntry hp s).trans (State.hitEffects_changes _ _ hk.windows hk.cues)

theorem State.takeEffect_short (s : State) (e : Entry) : (s.takeEffect e).2.Short := Offers.short_occurrences _

theorem State.effectStep_changes (s : State) (number : Nat) (hk : Tracks K) :
    s.Changes I K (s.effectStep number) := by
  unfold State.effectStep
  split
  · exact .refl s
  · next e he =>
    split
    · next hd =>
      have posted : e.isPosted = true := (Bool.and_eq_true_iff.mp hd).1
      exact (s.takeEffect_changes (State.entry?_mem he).1 posted hk).trans
        (State.handOut_changes _ _ hk.toHands (s.takeEffect_short e))
    · exact .refl s

/-! ### The bus -/

theorem State.not_streaming_of_streamer_none {s : State} (h : s.streamer = none) {e : Entry} (he : e ∈ s.tracker) :
    e.isStreaming = false := by
  simpa using List.find?_eq_none.mp h e he

/-- The bus goes to the entry of a number, and the other streaming entries, if any, leave the list. -/
theorem State.takeBus_dropEntry_changes (s : State) (taker leaver : Nat) (cut : Bool) (hk : K .tracker)
    (h : Whole s.tracker s.nextNumber → ∀ e ∈ s.tracker, e.number ≠ taker → e.isStreaming = true → e.number = leaver) :
    s.Changes I K ((s.takeBus taker cut).dropEntry leaver) :=
  s.tracker_changes _ hk
    (fun w => w.takeBus taker cut fun e he hne hs => by simp [h w e he hne hs])
    fun he => by simp [State.takeBus, he]

theorem State.takeBus_changes (s : State) (taker : Nat) (cut : Bool) (hk : K .tracker) (hs : s.streamer = none) :
    s.Changes I K (s.takeBus taker cut) := by
  refine s.tracker_changes _ hk (fun w => ?_) fun he => by simp [he]
  have all := w.takeBus taker cut (p := fun _ => true) fun e he _ hst =>
    absurd ((State.not_streaming_of_streamer_none hs he).symm.trans hst) Bool.false_ne_true
  rw [List.filter_true] at all
  exact all

theorem State.dataStep_changes (s : State) (number : Nat) (hk : Tracks K) (hI : I → s.TrackerInv) :
    s.Changes I K (s.dataStep number) := by
  have entries (hi : I) := (s.trackerInv_iff.mp (hI hi)).entries
  unfold State.dataStep
  split
  · exact .refl s
  · next n hn =>
    obtain ⟨hmem, -⟩ := State.entry?_mem hn
    split
    · next hd =>
      have waiting : n.isStreaming = false := by
        have phase : n.phase = .waiting := eq_of_beq (Bool.and_eq_true_iff.mp hd).1
        simp [Entry.isStreaming, phase]
      split
      · next hs => exact s.takeBus_changes _ _ hk.tracker hs
      · next e hs =>
        obtain ⟨emem, streaming⟩ := State.streamer_mem hs
        have gives (cut : Bool) : s.Changes I K ((s.takeBus n.number cut).dropEntry e.number) :=
          s.takeBus_dropEntry_changes _ _ _ hk.tracker fun w x hx _ hsx =>
            congrArg Entry.number (w.eq_of_streaming hx emem hsx streaming)
        have keeps (cut : Bool) : s.Changes I K ((s.takeBus e.number cut).dropEntry n.number) :=
          s.takeBus_dropEntry_changes _ _ _ hk.tracker fun w x hx hne hsx =>
            absurd (congrArg Entry.number (w.eq_of_streaming hx emem hsx streaming)) hne
        split
        · exact .refl s
        · split
          · exact State.retire_changes (gives _) _ hk fun hi => entries hi e emem
          · split
            · exact State.retire_changes (gives _) _ hk fun hi => entries hi e emem
            · split
              · exact State.retire_changes (gives _) _ hk fun hi => entries hi e emem
              · exact State.retire_changes (keeps _) _ hk fun hi => entries hi n hmem
    · exact .refl s

theorem State.doneStep_changes (s : State) (number : Nat) (hk : Tracks K) (hI : I → s.TrackerInv) :
    s.Changes I K (s.doneStep number) := by
  unfold State.doneStep
  split
  · exact .refl s
  · next e he =>
    split
    · exact State.retire_changes (s.dropEntry_changes _ hk.tracker) _ hk fun hi =>
        (s.trackerInv_iff.mp (hI hi)).entries e (State.entry?_mem he).1
    · exact .refl s

theorem State.foldl_changes {α : Type} (f : State → α → State)
    (h : ∀ (t : State) (n : α), (I → t.TrackerInv) → t.Changes I K (f t n)) (l : List α) (s : State)
    (hI : I → s.TrackerInv) : s.Changes I K (l.foldl f s) := by
  induction l generalizing s with
  | nil => exact .refl s
  | cons n l ih => exact (h s n hI).andThen hI fun hI' => ih _ hI'

theorem State.allEffects_changes (s : State) (hk : Tracks K) (hI : I → s.TrackerInv) :
    s.Changes I K s.allEffects :=
  State.foldl_changes _ (fun t n _ => t.effectStep_changes n hk) _ s hI

theorem State.allData_changes (s : State) (hk : Tracks K) (hI : I → s.TrackerInv) : s.Changes I K s.allData :=
  State.foldl_changes _ (fun t n ht => t.dataStep_changes n hk ht) _ s hI

theorem State.allDone_changes (s : State) (hk : Tracks K) (hI : I → s.TrackerInv) : s.Changes I K s.allDone :=
  State.foldl_changes _ (fun t n ht => t.doneStep_changes n hk ht) _ s hI

theorem State.resolveVoid_changes (s : State) (kind : AccessKind) (hk : K .tracker) :
    s.Changes I K (s.resolveVoid kind) := by
  unfold State.resolveVoid
  split
  · exact .refl s
  · next e he =>
    obtain ⟨hmem, hs, hroom⟩ := State.openHolder_room he
    exact s.updateEntry_changes hmem _ hk rfl (fun h => h) fun h => h.makeVoid hs hroom

theorem State.settleHolder_changes (s : State) (hk : Tracks K) (hI : I → s.TrackerInv) :
    s.Changes I K s.settleHolder :=
  (s.resolveVoid_changes .read hk.tracker).andThen hI fun hI' => State.allData_changes _ hk hI'

/-! ### Beats and forwarding -/

theorem State.takeBack_changes (s : State) (hf : K .forwarding) (ht : K .tracker) : s.Changes I K s.takeBack := by
  have cleared : s.Changes I K
      { s with fwd := { s.fwd with rxRead := none }, turns := { s.turns with readTaken := none } } :=
    (s.fwd_changes { s.fwd with rxRead := none } hf rfl).trans (State.turn_changes _ _ rfl)
  unfold State.takeBack
  simp only
  split
  · exact cleared
  · next number satisfied _ =>
    refine cleared.trans (State.tracker_changes _ _ ht (fun w => ?_) fun h => List.map_eq_nil_iff.mpr h)
    refine w.map (fun e _ => ?_) (fun e _ hs => ?_) (fun e _ hi => ?_)
    · split <;> rfl
    · split at hs <;> exact hs
    · split
      · exact hi.withoutBeats satisfied
      · exact hi

theorem State.receiveWrite_changes (s : State) (b0 b1 : WriteBeat) (hf : K .forwarding) (ht : K .tracker) :
    s.Changes I K (s.receiveWrite b0 b1) := by
  have held (t : State) (h : HeldWrite) : t.Changes I K
      { t with fwd := { t.fwd with rxWrite := some h }, turns := { t.turns with writeBeats := true } } :=
    (t.fwd_changes { t.fwd with rxWrite := some h } hf rfl).trans (State.turn_changes _ _ rfl)
  unfold State.receiveWrite
  split
  · exact held _ _
  · next e he =>
    obtain ⟨hmem, hs, hroom⟩ := State.openHolder_room he
    exact (s.updateEntry_changes hmem (fun x => x.attribute s.windows b0 b1) ht rfl (fun h => h)
      fun h => h.attribute hs _ b0 b1 hroom).trans (held _ _)

theorem State.receiveRead_changes (s : State) (d0 d1 : BeatData) (hf : K .forwarding) (ht : K .tracker) :
    s.Changes I K (s.receiveRead d0 d1) := by
  have received (t : State) (taken : Option (Nat × WindowSet)) : t.Changes I K
      { t with
        fwd := { t.fwd with rxRead := some (d0, d1) }
        turns := { t.turns with readBeats := true, readTaken := taken } } :=
    (t.fwd_changes { t.fwd with rxRead := some (d0, d1) } hf rfl).trans (State.turn_changes _ _ rfl)
  unfold State.receiveRead
  simp only
  split
  · exact received s _
  · next e he =>
    obtain ⟨hmem, hs, hroom⟩ := State.openHolder_room he
    exact (s.updateEntry_changes hmem (fun x => x.attribute s.windows { data := d0, mask := 0 } { data := d1, mask := 0 })
      ht rfl (fun h => h) fun h => h.attribute hs _ _ _ hroom).trans (received _ _)

theorem State.closeWaiting_changes (s : State) (number : Nat) (hk : Hands K) (ht : K .tracker) :
    s.Changes I K (s.closeWaiting number) := by
  unfold State.closeWaiting
  split
  · exact .refl s
  · split
    · exact .refl s
    · exact ((s.waiting_changes _ ht).trans (State.closeAccount_changes _ _ hk.alert)).trans
        (State.handOut_changes _ _ hk (State.closeAccount_short _ _))

theorem State.forwardWrite_changes (s : State) (hk : Hands K) (ht : K .tracker) (hf : K .forwarding) :
    s.Changes I K s.forwardWrite := by
  have driven (w : Option (WriteBeat × WriteBeat)) : s.Changes I K
      { s with fwd := { s.fwd with txWrite := none, pins := { s.fwd.pins with writeBeats := w } } } :=
    s.fwd_changes _ hf rfl
  unfold State.forwardWrite
  split
  · exact .refl s
  · simp only
    split
    · exact driven _
    · next h _ _ number i _ =>
      have classified (t : State) (f : Entry → Entry)
          (hn : ∀ e, f e = e.classify s.maskingOn i h.first.guard h.second.guard ∨ f e = e) :
          t.Changes I K { t with tracker := t.tracker.map f, waiting := t.waiting.map f } := by
        refine (State.Change.tracker (s := t) (t.tracker.map f) (t.waiting.map f) t.nextNumber ht (fun w => ?_)
          fun _ hl => by simp [hl]).chain
        refine (State.trackerInv_iff _).mpr ((t.trackerInv_iff.mp w).map (fun e _ => ?_) (fun e _ hs => ?_)
          fun e _ hi => ?_)
        · obtain eq | eq := hn e <;> rw [eq]
          rfl
        · obtain eq | eq := hn e <;> rw [eq] at hs <;> exact hs
        · obtain eq | eq := hn e <;> rw [eq]
          · exact hi.classify _ _ _ _
          · exact hi
      refine ((driven _).trans (classified _ _ fun e => ?_)).trans (State.closeWaiting_changes _ _ hk ht)
      split
      · exact .inl rfl
      · exact .inr rfl

theorem State.forwardRead_changes (s : State) (hf : K .forwarding) : s.Changes I K s.forwardRead := by
  unfold State.forwardRead
  split
  · exact .refl s
  · exact s.fwd_changes _ hf rfl

theorem State.forwardCommand_changes (s : State) (hf : K .forwarding) : s.Changes I K s.forwardCommand := by
  unfold State.forwardCommand
  split
  · exact .refl s
  · exact s.fwd_changes _ hf rfl

end

end Sys2Proof.Machine
end

section
/-! SUPPORT. The events of trace capture, of the sequencer, of the cue pins and of the timebase as chains of changes. -/
namespace Sys2Proof.Machine

section
variable {I : Prop} {K : Effect → Prop}

/-! ### Trace capture -/

theorem State.setCapture_changes (s : State) (c : Capture) (hc : K .capture)
    (hp : K .program ∨ c.settings = s.capture.settings) (hs : K .store ∨ c.store = s.capture.store)
    (hb : s.capture.Inv → c.Inv) : s.Changes I K (s.setCapture c) :=
  (State.Change.capture (s := s) c hc hp hs fun _ => hb).chain

/-- The effects of staging: trace capture and the alert latches. -/
def Effect.Stages (e : Effect) : Prop := e = .capture ∨ e = .alert

theorem Effect.stages_capture : Effect.Stages .capture := .inl rfl

theorem Effect.stages_alert : Effect.Stages .alert := .inr rfl

/-- A chain on trace capture and the alert latches whose end is bounded, whatever stands between. -/
theorem State.Changes.staged {s t : State} (h : s.Changes False Effect.Stages t) (hstep : s.CaptureStep t)
    (hc : K .capture) (ha : K .alert) (hb : s.capture.Inv → t.capture.Inv) : s.Changes I K t := by
  have no {e : Effect} (hne : e ≠ .capture) (hna : e ≠ .alert) : ¬ e.Stages := fun he => he.elim hne hna
  obtain ⟨heq, hset, hglobal, henables⟩ := hstep
  have store := h.store (no nofun nofun)
  have latches := h.latches (no nofun nofun) (no nofun nofun)
  have both : s.Changes I K { s with capture := t.capture, alert := t.alert } :=
    (s.setCapture_changes t.capture hc (.inr hset) (.inr store) hb).trans
      (State.Change.alert (s := s.setCapture t.capture) t.alert ha (.inr ⟨hglobal, henables⟩)
        (.inr (.inr latches))).chain
  rw [heq]
  exact both

theorem State.setCapture_staged (s : State) (c : Capture) (hp : c.settings = s.capture.settings)
    (hs : c.store = s.capture.store) : s.Changes False Effect.Stages (s.setCapture c) :=
  (State.Change.capture (s := s) c Effect.stages_capture (.inr hp) (.inr hs) False.elim).chain

theorem State.enterGap_staged (s : State) (q : QueueId) : s.Changes False Effect.Stages (s.enterGap q) := by
  rw [s.enterGap_eq]
  unfold Capture.withGap
  split
  · exact s.setCapture_staged _ (by simp) (by simp)
  · exact .refl s

theorem State.serveNote_staged (s : State) : s.Changes False Effect.Stages s.serveNote := by
  unfold State.serveNote
  split
  · exact .refl s
  · next stamp _ =>
    exact (s.offerEvent_changes (.channel .softReset stamp) Effect.stages_capture Effect.stages_alert
      (by simp [Record.length])).trans
      (State.setCapture_staged _ _ rfl rfl)

theorem State.startCapture_changes (s : State) (hc : K .capture) (ha : K .alert) :
    s.Changes I K s.startCapture := by
  refine State.Changes.staged ?_ s.startCapture_step hc ha s.startCapture_inv
  unfold State.startCapture
  split
  · exact .refl s
  · have run : s.Changes False Effect.Stages (s.setCapture { s.capture with state := .run }) :=
      s.setCapture_staged _ rfl rfl
    exact (((run.trans (State.serveNote_staged _)).trans (State.enterGap_staged _ _)).trans
      (State.enterGap_staged _ _)).trans (State.enterGap_staged _ _)

theorem State.stopCapture_changes (s : State) (hc : K .capture) : s.Changes I K s.stopCapture := by
  have inv := s.stopCapture_inv
  unfold State.stopCapture at inv ⊢
  split at inv
  · next hr =>
    rw [if_pos hr]
    exact s.setCapture_changes _ hc (.inr rfl) (.inr rfl) inv
  · next hr =>
    rw [if_neg hr]
    exact .refl s

theorem State.triggerCapture_changes (s : State) (hc : K .capture) : s.Changes I K s.triggerCapture := by
  have inv := s.triggerCapture_inv
  unfold State.triggerCapture at inv ⊢
  split
  · next hr =>
    rw [if_pos hr] at inv
    split
    · next hz =>
      rw [if_pos hz] at inv
      exact s.setCapture_changes _ hc (.inr rfl) (.inr rfl) inv
    · next hz =>
      rw [if_neg hz] at inv
      exact s.setCapture_changes _ hc (.inr rfl) (.inr rfl) inv
  · exact .refl s

theorem State.unitTurn_changes (s : State) (hc : K .capture) (hs : K .store) : s.Changes I K s.unitTurn := by
  have inv := s.unitTurn_inv
  unfold State.unitTurn State.writeUnit at inv ⊢
  split
  · exact .refl s
  · next hu =>
    rw [if_neg hu] at inv
    split
    · exact .refl s
    · next hw =>
      rw [if_neg hw] at inv
      exact (s.setCapture_changes _ hc (.inr (by simp)) (.inl hs) inv).trans (State.turn_changes _ _ rfl)

theorem State.pick_changes (s : State) (hc : K .capture) (hs : K .store) (ha : K .alert) :
    s.Changes I K s.pick := by
  have inv := s.pick_inv
  by_cases hp : s.capture.running = true ∧ s.capture.writer = none ∧ s.turns.unit = false
  · obtain ⟨hr, hw, hu⟩ := hp
    by_cases hq : ∃ q r rest, s.capture.chosen = some q ∧ (s.capture.queue q).records = r :: rest
    · obtain ⟨q, r, rest, hq, hl⟩ := hq
      rw [s.pick_eq hr hw hu hq hl] at inv ⊢
      split
      · next hf =>
        rw [if_pos hf, State.stopFull_eq] at inv
        rw [State.stopFull_eq]
        exact (s.setCapture_changes _ hc (.inr (by simp [Capture.returned, Capture.enterStopped])) (.inl hs) inv).trans
          (State.setLatch_changes _ _ ha)
      · next hf =>
        rw [if_neg hf, State.beginRecord_eq] at inv
        have settings (c : Capture) : (c.begun s.now q r).settings = c.settings := by
          unfold Capture.begun Capture.withGap
          split <;> simp
        rw [State.beginRecord_eq]
        exact (s.setCapture_changes _ hc (.inr (by simp [settings])) (.inl hs) inv).trans
          (State.turn_changes _ _ rfl)
    · have none : ∀ q r rest, s.capture.chosen = some q → (s.capture.queue q).records ≠ r :: rest :=
        fun q r rest h1 h2 => hq ⟨q, r, rest, h1, h2⟩
      rw [s.pick_none (.inr none)]
      exact .refl s
  · rw [s.pick_none (.inl hp)]
    exact .refl s

theorem State.pickTurn_changes (s : State) (hc : K .capture) (hs : K .store) (ha : K .alert) :
    s.Changes I K s.pickTurn := by
  unfold State.pickTurn
  split
  · exact .refl s
  · exact (s.pick_changes hc hs ha).trans (State.turn_changes _ _ rfl)

/-! ### Stages (R124, R132 to R137) -/

/-- `q` is `p` with an occurrence taken from it, the stage in force as it was. -/
structure Sequencer.Takes (p q : Sequencer) : Prop where
  state : q.state = p.state
  stage : q.stage = p.stage
  expiry : q.expiry = p.expiry
  stages : q.stages = p.stages
  queue : q.queue.Sublist p.queue

theorem Sequencer.Takes.refl (p : Sequencer) : p.Takes p := ⟨rfl, rfl, rfl, rfl, .refl _⟩

/-- An occurrence is taken in ARMED and the stage in force stays: its count stays below N. -/
theorem State.stay_changes (s : State) (q : Sequencer) (hs : K .sequencer) (harmed : s.seq.state = .armed)
    (hq : s.seq.Takes q) (hn : s.SequencerInv → q.count < (s.stageOf s.seq.stage).n.toNat) :
    s.Changes I K (s.setSeq q) := by
  obtain ⟨hstate, hstage, hexpiry, hstages, hqueue⟩ := hq
  have armed : q.state = .armed := hstate.trans harmed
  have sameStage : (s.setSeq q).stageOf q.stage = s.stageOf s.seq.stage := by
    simp [State.stageOf, hstages, hstage]
  refine (State.Change.sequencer (s := s) q hs (.inr hstages) (fun h => ?bounds) fun _ hd => ?held).chain
  case bounds =>
    have count := hn h
    obtain ⟨places, -, -, inForce, uses, table⟩ := h
    refine ⟨hqueue.length_le.trans places, by simp [armed], by simp [armed], fun _ => ?_, fun o ho => ?_, ?_⟩
    · change q.count < ((s.setSeq q).stageOf q.stage).n.toNat ∧
        (q.expiry = none ↔ ((s.setSeq q).stageOf q.stage).t = 0)
      rw [sameStage, hexpiry]
      exact ⟨count, (inForce harmed).2⟩
    · rw [hstages]
      exact uses o (hqueue.subset ho)
    · rw [hstages]
      exact table
  case held =>
    rw [hd] at harmed
    exact absurd harmed (by decide)

/-- What does not reach the sequencer. -/
def Effect.Beside (K : Effect → Prop) (e : Effect) : Prop := K e ∧ e ≠ .sequencer

/-- The sequencer takes a value after a chain beside it. -/
theorem State.Changes.thenSeq {s t : State} {q q' : Sequencer} (h : (s.setSeq q).Changes I (Effect.Beside K) t)
    (hq : s.Changes I K (s.setSeq q')) : s.Changes I K (t.setSeq q') := by
  have moved : (s.setSeq q').Changes I (Effect.Beside K) (t.setSeq q') := h.setSeq (fun hk => hk.2 rfl) q'
  exact hq.trans (moved.mono fun _ hk => hk.1)

/-- Stage `n` is entered after a chain beside the sequencer (R124). -/
theorem State.enterStage_changes {s t : State} {q : Sequencer} (h : (s.setSeq q).Changes I (Effect.Beside K) t)
    (hs : K .sequencer) (hstages : q.stages = s.seq.stages) (hqueue : q.queue.Sublist s.seq.queue)
    (harmed : s.seq.state = .armed ∨ s.turns.softReset = false) (n : StageNo) :
    s.Changes I K (t.enterStage n) := by
  have hseq : t.seq = q := h.seq fun hk => hk.2 rfl
  have hstage : t.stageOf n = s.stageOf n := by simp [State.stageOf, hseq, hstages]
  let entered : Sequencer := (t.enterStage n).seq
  have estages : entered.stages = s.seq.stages := (congrArg Sequencer.stages hseq).trans hstages
  have equeue : entered.queue = q.queue := by
    change t.seq.queue = q.queue
    rw [hseq]
  have eexpiry : entered.expiry = none ↔ (s.stageOf n).t = 0 := by
    change (if (t.stageOf n).t = 0 then none else some _) = none ↔ _
    rw [hstage]
    split <;> simp_all
  have change : s.Changes I K (s.setSeq entered) := by
    refine (State.Change.sequencer (s := s) entered hs (.inr estages) (fun inv => ?bounds) fun hu hd => ?held).chain
    case bounds =>
      obtain ⟨places, -, -, -, uses, table⟩ := inv
      have sameStage : (s.setSeq entered).stageOf n = s.stageOf n := by simp [State.stageOf, estages]
      have legal : (s.stageOf n).Inv := table _ (Vector.mem_toList_iff.mpr (Vector.getElem_mem n.isLt))
      refine ⟨?_, nofun, nofun, fun _ => ?_, fun o ho => ?_, ?_⟩
      · exact equeue ▸ hqueue.length_le.trans places
      · change 0 < ((s.setSeq entered).stageOf n).n.toNat ∧ (_ ↔ ((s.setSeq entered).stageOf n).t = 0)
        rw [sameStage]
        refine ⟨Nat.pos_of_ne_zero fun h0 => legal.1 (BitVec.eq_of_toNat_eq h0), eexpiry⟩
      · rw [estages]
        exact uses o (hqueue.subset (equeue ▸ ho))
      · rw [estages]
        exact table
    case held =>
      rcases harmed with harmed | hfree
      · rw [hd] at harmed
        exact absurd harmed (by decide)
      · exact absurd (hfree.symm.trans hu) Bool.false_ne_true
  exact (State.Changes.thenSeq h change).trans (State.turn_changes _ _ rfl)

/-- The sequencer enters TRIGGERED after a chain beside it (R136). -/
theorem State.enterTriggered_changes {s t : State} {q : Sequencer} (h : (s.setSeq q).Changes I (Effect.Beside K) t)
    (hs : K .sequencer) (ha : K .alert) (hstages : q.stages = s.seq.stages) (harmed : s.seq.state = .armed) :
    s.Changes I K t.enterTriggered := by
  have hseq : t.seq = q := h.seq fun hk => hk.2 rfl
  let entered : Sequencer := t.enterTriggered.seq
  have estages : entered.stages = s.seq.stages := (congrArg Sequencer.stages hseq).trans hstages
  have change : s.Changes I K (s.setSeq entered) := by
    refine (State.Change.sequencer (s := s) entered hs (.inr estages) (fun inv => ?bounds) fun _ hd => ?held).chain
    case bounds =>
      obtain ⟨-, -, -, -, -, table⟩ := inv
      exact ⟨Nat.zero_le _, nofun, fun _ => ⟨rfl, rfl, rfl, rfl⟩, nofun, nofun, estages ▸ table⟩
    case held =>
      rw [hd] at harmed
      exact absurd harmed (by decide)
  exact (State.Changes.thenSeq h change).trans (State.setLatch_changes _ _ ha)

theorem State.runActions_changes (s : State) (a : StageActions) (pin : PinNo) (hc : K .capture) (ha : K .alert)
    (hp : K .cues) : s.Changes I K (s.runActions a pin) := by
  have ite (t : State) (b : Bool) (f : State → State) (h : ∀ u : State, u.Changes I K (f u)) :
      t.Changes I K (if b then f t else t) := by
    cases b
    · exact .refl t
    · exact h t
  unfold State.runActions
  exact ((((ite _ _ _ fun u => u.startCapture_changes hc ha).trans
    (ite _ _ _ fun u => u.triggerCapture_changes hc)).trans
    (ite _ _ _ fun u => u.stopCapture_changes hc)).trans
    (ite _ _ (fun u => u.requestPulse .seqCue pin) fun u => u.requestPulse_changes _ _ hp (.inl rfl))).trans
    (State.setLatchIf_changes _ _ _ ha)

/-- A transition of the stage in force, from the sequencer as the take or the timeout leaves it. -/
theorem State.transition_changes (s : State) (q : Sequencer) (a : StageActions) (pin : PinNo) (next : StageNo)
    (cause : StageCause) (hk : Hands K) (hp : K .cues) (harmed : s.seq.state = .armed)
    (hstages : q.stages = s.seq.stages) (hqueue : q.queue.Sublist s.seq.queue) :
    s.Changes I K ((s.setSeq q).transition a pin next cause) := by
  have actions : (s.setSeq q).Changes I (Effect.Beside K) ((s.setSeq q).runActions a pin) :=
    State.runActions_changes _ a pin ⟨hk.capture, nofun⟩ ⟨hk.alert, nofun⟩ ⟨hp, nofun⟩
  unfold State.transition
  simp only
  split
  · exact (State.enterTriggered_changes actions hk.sequencer hk.alert hstages harmed).trans
      (State.offerEvent_changes _ _ hk.capture hk.alert (by simp [Record.length]))
  · exact (State.enterStage_changes actions hk.sequencer hstages hqueue (.inl harmed) next).trans
      (State.offerEvent_changes _ _ hk.capture hk.alert (by simp [Record.length]))

/-- What a stage takes is judged, from the sequencer as the take leaves it (R130, R132). -/
theorem State.judge_changes (s : State) (q : Sequencer) (x : Taken) (hk : Hands K) (hp : K .cues)
    (harmed : s.seq.state = .armed) (hq : s.seq.Takes q) (hcount : q.count = s.seq.count) :
    s.Changes I K ((s.setSeq q).judge x) := by
  have sameStage : (s.setSeq q).stageOf q.stage = s.stageOf s.seq.stage := by
    simp [State.stageOf, hq.stages, hq.stage]
  unfold State.judge
  simp only [State.setSeq_seq, sameStage]
  split
  · split
    · exact s.transition_changes { q with count := q.count + 1 } _ _ _ _ hk hp harmed hq.stages hq.queue
    · next hlow =>
      exact s.stay_changes { q with count := q.count + 1 } hk.sequencer harmed
        ⟨hq.state, hq.stage, hq.expiry, hq.stages, hq.queue⟩ fun _ => Nat.lt_of_not_le hlow
  · refine s.stay_changes q hk.sequencer harmed hq fun inv => ?_
    obtain ⟨-, -, -, inForce, -⟩ := inv
    exact hcount ▸ (inForce harmed).1

theorem State.take_changes (s : State) (hk : Hands K) (hp : K .cues) (harmed : s.seq.state = .armed) :
    s.Changes I K s.take := by
  unfold State.take
  split
  · exact s.judge_changes { s.seq with entry := false } .entry hk hp harmed ⟨rfl, rfl, rfl, rfl, .refl _⟩ rfl
  · split
    · exact .refl s
    · next o rest hl =>
      exact s.judge_changes { s.seq with queue := rest } (.queued o) hk hp harmed
        ⟨rfl, rfl, rfl, rfl, hl ▸ List.sublist_cons_self o rest⟩ rfl

theorem State.takeTurn_changes (s : State) (hk : Hands K) (hp : K .cues) : s.Changes I K s.takeTurn := by
  unfold State.takeTurn
  split
  · next ht => exact (s.take_changes hk hp ht.1).trans (State.turn_changes _ _ rfl)
  · exact .refl s

theorem State.timeout_changes (s : State) (hk : Hands K) (hp : K .cues) : s.Changes I K s.timeout := by
  unfold State.timeout
  split
  · next ht => exact s.transition_changes s.seq _ _ _ _ hk hp ht.1 rfl (.refl _)
  · exact .refl s

/-! ### The interval and the cue pins -/

theorem State.intervalTurn_changes (s : State) (hk : Hands K) : s.Changes I K s.intervalTurn := by
  unfold State.intervalTurn
  split
  · exact .refl s
  · simp only
    have tested : s.Changes I K { s with turns := { s.turns with interval := true } } := s.turn_changes _ rfl
    split
    · have offered := tested.trans (State.offerOccurrence_changes _ .interval hk.sequencer hk.alert)
      split
      · exact offered.trans (State.offer_changes _ _ _ hk.capture hk.alert fun _ => by simp [Record.length])
      · exact offered
    · exact tested

theorem State.endPulse_changes (s : State) (p : PinNo) (hk : K .cues) : s.Changes I K (s.endPulse p) := by
  unfold State.endPulse
  split
  · next hd =>
    have ended : (s.cue p).remaining = 0 := by simpa using (Bool.and_eq_true_iff.mp hd).2
    refine s.setCue_changes p _ hk (.inr ⟨rfl, rfl, rfl, rfl⟩) fun ⟨hwidth, hle, _, _⟩ => ?_
    exact ⟨hwidth, hle, fun hne => absurd ended hne, nofun⟩
  · exact .refl s

theorem State.samplePin_changes (s : State) (p : PinNo) (level : Bool) (hk : K .cues) :
    s.Changes I K (s.samplePin p level) := by
  unfold State.samplePin
  split
  · exact .refl s
  · exact (s.setCue_changes p { s.cue p with board := level } hk (.inr ⟨rfl, rfl, rfl, rfl⟩) fun h => h).trans
      (State.turn_changes _ _ rfl)

/-- The cue pins changed one by one. -/
theorem State.mapCues_changes (s : State) (f : Fin 4 → Cue → Cue) (hk : K .cues)
    (hf : K .program ∨ ∀ p c, (f p c).function = c.function ∧ (f p c).out = c.out ∧ (f p c).latch = c.latch ∧
      (f p c).width = c.width)
    (hi : ∀ (p : Fin 4) (c : Cue), c.Inv → (f p c).Inv) :
    s.Changes I K { s with cues := Vector.ofFn fun p => f p s.cues[p] } := by
  refine (State.Change.cues (s := s) _ hk (hf.imp_right fun h p => ?_) fun h p => ?_).chain
  · simpa using h p s.cues[p]
  · simpa using hi p s.cues[p] (h p)

theorem State.settleLevels_changes (s : State) (hk : K .cues) : s.Changes I K s.settleLevels :=
  s.mapCues_changes (fun _ c => { c with lastLevel := c.level s.alert.asserted }) hk
    (.inr fun _ _ => ⟨rfl, rfl, rfl, rfl⟩) fun _ _ h => h

theorem State.edgeOffers_short (s : State) (p : PinNo) : (s.edgeOffers p).Short := by
  unfold State.edgeOffers
  split
  · exact Offers.short_none
  · exact Offers.short_single _ _ rfl

/-- The edges of the pins given, joined to what is offered already. -/
def State.joinEdges (s : State) (l : List PinNo) (p : State × Offers) : State × Offers :=
  l.foldl (fun (p : State × Offers) pin => p.1.join p.2 (s.edgeOffers pin)) p

theorem State.takeEdges_first (s : State) (h : s.turns.firstSlot = true) : s.takeEdges = s.settleLevels := if_pos h

theorem State.takeEdges_later (s : State) (h : s.turns.firstSlot = false) :
    s.takeEdges =
      (s.joinEdges allPins (s.settleLevels, Offers.none)).1.handOut
        (s.joinEdges allPins (s.settleLevels, Offers.none)).2 :=
  if_neg (by simp [h])

theorem State.joinEdges_changes (s : State) (l : List PinNo) (p : State × Offers) :
    p.1.Changes I K (s.joinEdges l p).1 := by
  induction l generalizing p with
  | nil => exact .refl _
  | cons pin l ih => exact (p.1.join_changes _ _).trans (ih _)

theorem State.joinEdges_short (s : State) (l : List PinNo) (p : State × Offers) (hp : p.2.Short) :
    (s.joinEdges l p).2.Short := by
  induction l generalizing p with
  | nil => exact hp
  | cons pin l ih => exact ih _ (State.join_short _ hp (s.edgeOffers_short pin))

theorem State.takeEdges_changes (s : State) (hk : Hands K) (hp : K .cues) : s.Changes I K s.takeEdges := by
  cases hf : s.turns.firstSlot with
  | true =>
    rw [s.takeEdges_first hf]
    exact s.settleLevels_changes hp
  | false =>
    rw [s.takeEdges_later hf]
    exact ((s.settleLevels_changes hp).trans
      (s.joinEdges_changes allPins (s.settleLevels, Offers.none))).trans
      (State.handOut_changes _ _ hk (s.joinEdges_short _ _ Offers.short_none))

end

end Sys2Proof.Machine
end

section
/-! SUPPORT. Arrivals, the channel's resets and the requests as chains of changes. -/
namespace Sys2Proof.Machine

/-- The effects of a command are among those allowed. -/
def Allows (K : Effect → Prop) (c : Instr) : Prop := ∀ e : Effect, e.named c = true → K e

section
variable {I : Prop} {K : Effect → Prop}

/-! ### The checker's part of an arrival -/

theorem rollingAfter_length (s : State) (c : Cmd) (h : s.checker.rolling.length ≤ 8) :
    (rollingAfter s c).length ≤ 8 := by
  unfold rollingAfter
  split
  · have kept : s.rollingKept.length ≤ 8 := (List.length_filter_le _ _).trans h
    rw [rollingAppend_eq]
    split <;> simp <;> omega
  · exact h

theorem raiseCounts_get (counts : Vector Nat 22) (rules : RuleSet) (n : Fin 22) :
    (raiseCounts counts rules)[n] = if rules.getLsbD n.val then min (counts[n] + 1) 255 else counts[n] := by
  simp [raiseCounts, Config.countMax]

theorem raiseCounts_zero (counts : Vector Nat 22) : raiseCounts counts 0 = counts := by
  ext i hi
  simpa using raiseCounts_get counts 0 ⟨i, hi⟩

/-- What the checker holds after an arrival (R81, R82). -/
theorem State.judged_eq (s : State) (c : Cmd) :
    (s.judged c).checker =
      { s.checker with
        counts := raiseCounts s.checker.counts (brokenRules s c)
        first := if brokenRules s c = 0 then s.checker.first else firstAfter s c (brokenRules s c)
        readEnd := readEndAfter s c, measure := measureAfter s c, rolling := rollingAfter s c } := by
  unfold State.judged State.violate State.checkerTakes
  generalize brokenRules s c = rules
  split
  · next h =>
    rw [h, raiseCounts_zero]
    rfl
  · simp only [State.setChecker_checker, State.setLatch_checker]

theorem firstAfter_kept {s : State} {c : Cmd} {rules : RuleSet} {f : FirstViolation} (h : s.checker.first = some f) :
    firstAfter s c rules = some f := by
  simp [firstAfter, h]

theorem firstAfter_filled {s : State} {c : Cmd} {rules : RuleSet} (h : s.checker.first = none) :
    firstAfter s c rules = some { cmd := c, chan := s.chan, rules := rules, stamp := s.now } := by
  simp [firstAfter, h]

theorem State.judged_latches (s : State) (c : Cmd) :
    (s.judged c).alert =
      if brokenRules s c = 0 then s.alert
      else { s.alert with latches := s.alert.latches ||| Cause.violation.set } := by
  unfold State.judged State.violate
  split <;> rfl

theorem State.judged_changes (s : State) (c : Cmd) (hc : K .checker) (ha : K .alert) :
    s.Changes I K (s.judged c) := by
  have step := s.judged_checkerStep c
  have checked : s.Changes I K (s.setChecker (s.judged c).checker) := by
    refine (State.Change.checker (s := s) (s.judged c).checker hc ?rules ?bounds ?first ?counts).chain
    all_goals rw [s.judged_eq]
    case rules => exact .inr rfl
    case bounds =>
      rintro ⟨counts, ranges, rolling, first⟩
      refine ⟨fun n => ?_, ranges, rollingAfter_length s c rolling, fun f hf => ?_⟩
      · change (raiseCounts _ _)[n] ≤ 255
        rw [raiseCounts_get]
        split
        · exact Nat.min_le_right _ _
        · exact counts n
      · change (if _ then _ else _) = some f at hf
        split at hf
        · exact first f hf
        · next hr =>
          cases h : s.checker.first with
          | none =>
            rw [firstAfter_filled h] at hf
            rw [← Option.some.inj hf]
            exact hr
          | some g =>
            rw [firstAfter_kept h] at hf
            exact first f (h.trans hf)
    case first =>
      refine .inr (.inr fun f hf => ?_)
      simp [hf, firstAfter_kept hf]
    case counts =>
      refine .inr (.inr fun ⟨counts, _⟩ n => ?_)
      change _ ≤ (raiseCounts _ _)[n]
      rw [raiseCounts_get]
      split
      · exact Nat.le_min.mpr ⟨Nat.le_succ _, counts n⟩
      · exact Nat.le_refl _
  have latched : (s.setChecker (s.judged c).checker).Changes I K
      { s with checker := (s.judged c).checker, alert := (s.judged c).alert } := by
    rw [s.judged_latches]
    split
    · exact .refl _
    · exact State.setLatch_changes (s.setChecker (s.judged c).checker) .violation ha
  have both := checked.trans latched
  rwa [← step] at both

/-! ### The shadow -/

/-- The shadow replaced while the channel is not in RESET HELD. -/
theorem State.shadow_changes (s : State) (chan : ChanState) (banks : Vector Bank 16) (modes : Modes)
    (hk : K .shadow) (hs : s.chan ≠ .resetHeld) (hc : chan ≠ .resetHeld) (hm : s.modes.Inv → modes.Inv) :
    s.Changes I K { s with chan := chan, banks := banks, modes := modes } :=
  (State.Change.shadow (s := s) chan banks modes s.fwd.mrst hk (.inl rfl)
    (fun ⟨hline, _⟩ => ⟨⟨fun h => absurd h hc, fun h => absurd (hline.mpr h) hs⟩, fun h => absurd h hc⟩) hm).chain

/-- Banks replaced that hold no row where none did. -/
theorem State.banks_changes (s : State) (banks : Vector Bank 16) (hk : K .shadow)
    (h : (∀ k : Fin 16, s.banks[k].row = none) → ∀ k : Fin 16, banks[k].row = none) :
    s.Changes I K { s with banks := banks } :=
  (State.Change.shadow (s := s) s.chan banks s.modes s.fwd.mrst hk (.inl rfl)
    (fun ⟨hline, reset⟩ => ⟨hline, fun hr => by
      obtain ⟨rows, modes, entries⟩ := reset hr
      exact ⟨fun b => h (fun k => rows (BitVec.ofFin k)) ⟨b.toNat, b.isLt⟩, modes, entries⟩⟩)
    fun hm => hm).chain

theorem modeWord0Of_range {v : BitVec 16} {w : ModeWord0} (h : modeWord0Of v = some w) :
    4 ≤ w.readDelay.toNat ∧ w.readDelay.toNat ≤ 14 := by
  unfold modeWord0Of at h
  split at h
  · cases h
  · simp only at h
    split at h
    · next hr =>
      rw [← Option.some.inj h]
      exact hr
    · cases h

theorem modeWord1Of_range {v : BitVec 16} {w : ModeWord1} (h : modeWord1Of v = some w) :
    3 ≤ w.writeDelay.toNat ∧ w.writeDelay.toNat ≤ 13 ∧ w.postedDelay.toNat ≤ 6 := by
  unfold modeWord1Of at h
  simp only at h
  split at h
  · next hr =>
    rw [← Option.some.inj h]
    exact hr
  · cases h

theorem Modes.Inv.load {m : Modes} (h : m.Inv) (index : BitVec 2) (value : BitVec 16) : (m.load index value).Inv := by
  obtain ⟨h0, h1⟩ := h
  unfold Modes.load
  split
  · exact ⟨fun w hw => modeWord0Of_range hw, h1⟩
  · exact ⟨h0, fun w hw => modeWord1Of_range hw⟩
  · exact ⟨h0, h1⟩
  · exact ⟨h0, h1⟩

theorem Modes.invalid_inv : Modes.invalid.Inv := ⟨nofun, nofun⟩

theorem Cmd.arrival_access (kind : AccessKind) (b : BankNo) (column : Col) (ac : Bool) :
    Cmd.arrival (.access kind b column ac) = .readBurst b column ac ∨
    Cmd.arrival (.access kind b column ac) = .writeBurst b column ac := by
  cases kind
  · exact .inl rfl
  · exact .inr rfl

/-- The effects of every arrival. -/
theorem Cmd.arrival_named (c : Cmd) :
    Hands (fun e => e.named c.arrival = true) ∧ Effect.checker.named c.arrival = true ∧
    Effect.forwarding.named c.arrival = true := by
  cases c with
  | access kind b column ac =>
    obtain h | h := Cmd.arrival_access kind b column ac <;> rw [h] <;> exact ⟨⟨rfl, rfl, rfl⟩, rfl, rfl⟩
  | _ => exact ⟨⟨rfl, rfl, rfl⟩, rfl, rfl⟩

theorem Allows.hands {c : Cmd} (hk : Allows K c.arrival) : Hands K :=
  have ⟨⟨hs, hc, ha⟩, _, _⟩ := c.arrival_named
  ⟨hk _ hs, hk _ hc, hk _ ha⟩

/-- The effects of an access. -/
theorem Allows.access {kind : AccessKind} {b : BankNo} {column : Col} {ac : Bool}
    (hk : Allows K (Cmd.arrival (.access kind b column ac))) : Tracks K ∧ K .shadow := by
  obtain h | h := Cmd.arrival_access kind b column ac <;> rw [h] at hk <;>
    exact ⟨⟨⟨hk _ rfl, hk _ rfl, hk _ rfl⟩, hk _ rfl, hk _ rfl, hk _ rfl⟩, hk _ rfl⟩

theorem State.shadowLive_changes (s : State) (c : Cmd) (hk : Allows K c.arrival) (hl : s.chan = .live) :
    s.Changes I K (s.shadowLive c) := by
  have live : s.chan ≠ .resetHeld := by simp [hl]
  have banked (h : K .shadow) (banks : Vector Bank 16) : s.Changes I K { s with banks := banks } :=
    s.shadow_changes s.chan banks s.modes h live live fun hm => hm
  cases c with
  | openBank b r => exact banked (hk .shadow rfl) _
  | access kind b column ac => exact banked hk.access.2 _
  | closeBank b => exact banked (hk .shadow rfl) _
  | closeAll => exact banked (hk .shadow rfl) _
  | refresh => exact .refl s
  | modeLoad index value =>
    exact s.shadow_changes s.chan s.banks _ (hk .shadow rfl) live live fun hm => hm.load index value
  | sleepEnter => exact s.shadow_changes .asleep s.banks s.modes (hk .shadow rfl) live nofun fun hm => hm
  | sleepExit => exact .refl s

theorem State.shadow_arrival_changes (s : State) (c : Cmd) (hk : Allows K c.arrival) :
    s.Changes I K (s.shadow c) := by
  unfold State.shadow
  split
  · next hl => exact s.shadowLive_changes c hk hl
  · next ha =>
    split
    · exact s.shadow_changes .live s.banks s.modes (hk .shadow rfl) (by simp [ha]) nofun fun hm => hm
    · exact .refl s
  · exact .refl s

/-! ### The tracker at an arrival -/

theorem State.judgeUntrackedWrite_changes (s : State) (u : Untracked) (ha : K .alert) :
    s.Changes I K (s.judgeUntrackedWrite u).1 := by
  unfold State.judgeUntrackedWrite
  split
  · simp only
    split
    · exact .refl s
    · exact s.report_changes _ ha
  · split
    · exact s.report_changes _ ha
    · exact .refl s

theorem State.judgeUntrackedWrite_short (s : State) (u : Untracked) : (s.judgeUntrackedWrite u).2.Short := by
  unfold State.judgeUntrackedWrite
  split
  · simp only
    split
    · exact Offers.short_none
    · exact s.report_short _
  · split
    · exact s.report_short _
    · exact Offers.short_none

/-- The guard's part of an untracked access (R114). -/
def State.judgeUntracked (s : State) (u : Untracked) : State × Offers :=
  match u.kind with
  | .write => s.judgeUntrackedWrite u
  | .read => (s, Offers.none)

theorem State.handUntracked_eq (s : State) (u : Untracked) :
    s.handUntracked u =
      let hit := (s.hitEffects (s.untrackedHits u)).1
      let judged := (hit.offerAccess (s.untrackedHits u) (untrackedRecord u (s.untrackedHits u))).judgeUntracked u
      judged.1.join { occurrences := (s.hitEffects (s.untrackedHits u)).2, records := [] } judged.2 := by
  unfold State.handUntracked State.judgeUntracked
  cases u.kind <;> rfl

theorem State.judgeUntracked_changes (s : State) (u : Untracked) (ha : K .alert) :
    s.Changes I K (s.judgeUntracked u).1 := by
  unfold State.judgeUntracked
  split
  · exact s.judgeUntrackedWrite_changes u ha
  · exact .refl s

theorem State.judgeUntracked_short (s : State) (u : Untracked) : (s.judgeUntracked u).2.Short := by
  unfold State.judgeUntracked
  split
  · exact s.judgeUntrackedWrite_short u
  · exact Offers.short_none

theorem untrackedRecord_length (u : Untracked) (hits : WindowSet) : (untrackedRecord u hits).length = 1 := by
  simp [untrackedRecord, Record.length]

theorem State.handUntracked_changes (s : State) (u : Untracked) (hk : Tracks K) :
    s.Changes I K (s.handUntracked u).1 := by
  rw [s.handUntracked_eq]
  exact (((s.hitEffects_changes _ hk.windows hk.cues).trans
    (State.offerAccess_changes _ _ _ hk.capture hk.alert fun _ => by rw [untrackedRecord_length]; decide)).trans
    (State.judgeUntracked_changes _ _ hk.alert)).trans (State.join_changes _ _ _)

theorem State.handUntracked_short (s : State) (u : Untracked) : (s.handUntracked u).2.Short := by
  rw [s.handUntracked_eq]
  exact State.join_short _ (Offers.short_occurrences _) (State.judgeUntracked_short _ _)

theorem State.appendEntry_changes (s : State) (e : Entry) (hk : K .tracker) (hl : s.tracker.length < 8)
    (hr : s.chan ≠ .resetHeld) (hn : e.number = s.nextNumber) (hp : e.isStreaming = false) (hi : e.Inv) :
    s.Changes I K { s with tracker := s.tracker ++ [e], nextNumber := s.nextNumber + 1 } :=
  (State.Change.tracker (s := s) _ s.waiting _ hk
    (fun h => (State.trackerInv_iff _).mpr ((s.trackerInv_iff.mp h).append hl hn hp hi))
    fun h _ => absurd h hr).chain

theorem State.joinList_changes (s : State) (e : Entry) (hk : Tracks K) (hl : s.tracker.length < 8)
    (hr : s.chan ≠ .resetHeld) (hn : e.number = s.nextNumber) (hp : e.isPosted = true) (hi : e.Inv) :
    s.Changes I K (s.joinList e).1 := by
  have posted : e.phase = .posted := eq_of_beq hp
  have joined : s.Changes I K { s with tracker := s.tracker ++ [e], nextNumber := s.nextNumber + 1 } :=
    s.appendEntry_changes e hk.tracker hl hr hn (by simp [Entry.isStreaming, posted]) hi
  unfold State.joinList
  simp only
  split
  · exact joined
  · exact joined.trans (State.takeEffect_changes _ (List.mem_append_right _ (List.mem_singleton.mpr rfl)) hp hk)

theorem State.joinList_short (s : State) (e : Entry) : (s.joinList e).2.Short := by
  unfold State.joinList
  simp only
  split
  · exact Offers.short_none
  · exact State.takeEffect_short _ _

/-- A tracked access finds LIVE and a place in the list (R42). -/
theorem State.untrackedReason_none {s : State} (h : s.untrackedReason = none) :
    s.chan = .live ∧ s.modes.word0 ≠ none ∧ s.modes.word1 ≠ none ∧ s.tracker.length < 8 := by
  unfold State.untrackedReason at h
  split at h
  · cases h
  · next hc =>
    split at h
    · cases h
    · next hm =>
      split at h
      · cases h
      · next hl =>
        rw [not_or] at hm
        exact ⟨not_not.mp hc, by simpa using hm.1, by simpa using hm.2, Nat.lt_of_not_le hl⟩

theorem State.markDoubtful_changes (s : State) (c : Cmd) (hk : K .tracker) : s.Changes I K (s.markDoubtful c) := by
  unfold State.markDoubtful
  split
  · refine s.tracker_changes _ hk (fun w => w.map (fun e _ => ?_) (fun e _ hs => ?_) fun e _ hi => ?_) fun h => by
      simp [h]
    · split <;> rfl
    · split at hs <;> exact hs
    · split <;> exact hi
  · exact .refl s

/-- A command that reaches no POSTED entry marks none. -/
theorem State.markDoubtful_other (s : State) (c : Cmd) (h : ∀ e, reachesPosted c e = false) : s.markDoubtful c = s := by
  unfold State.markDoubtful
  split
  · simp [h]
  · rfl

theorem State.trackArrival_changes (s : State) (c : Cmd) (hk : Allows K c.arrival) :
    s.Changes I K (s.trackArrival c).1 := by
  have marked (h : ∀ k b col ac, c ≠ .access k b col ac)
      (hm : K .tracker ∨ ∀ e, reachesPosted c e = false) : s.Changes I K (s.trackArrival c).1 := by
    rw [s.trackArrival_notAccess c h]
    obtain hm | hm := hm
    · exact s.markDoubtful_changes c hm
    · rw [s.markDoubtful_other c hm]
      exact .refl s
  cases c with
  | access kind b column ac =>
    obtain ⟨tracks, -⟩ := hk.access
    unfold State.trackArrival
    simp only
    split
    · exact s.handUntracked_changes _ tracks
    · next t hr _ =>
      obtain ⟨live, -, -, places⟩ := State.untrackedReason_none hr
      exact s.joinList_changes _ tracks places (by simp [live]) rfl rfl (s.newEntry_inv kind b column ac t)
    · exact .refl s
  | openBank b r => exact marked (by simp) (.inl (hk .tracker rfl))
  | closeBank b => exact marked (by simp) (.inl (hk .tracker rfl))
  | closeAll => exact marked (by simp) (.inl (hk .tracker rfl))
  | refresh => exact marked (by simp) (.inr fun e => Bool.and_false e.isPosted)
  | modeLoad i v => exact marked (by simp) (.inr fun e => Bool.and_false e.isPosted)
  | sleepEnter => exact marked (by simp) (.inr fun e => Bool.and_false e.isPosted)
  | sleepExit => exact marked (by simp) (.inr fun e => Bool.and_false e.isPosted)

theorem State.trackArrival_short (s : State) (c : Cmd) : (s.trackArrival c).2.Short := by
  unfold State.trackArrival
  split
  · split
    · exact s.handUntracked_short _
    · exact s.joinList_short _
    · exact Offers.short_none
  · exact Offers.short_none

theorem State.violate_short (s : State) (c : Cmd) (rules : RuleSet) : (s.violate c rules).2.Short := by
  unfold State.violate
  split
  · exact Offers.short_none
  · intro r hr
    obtain ⟨n, -, rfl⟩ := List.mem_map.mp hr
    simp [Record.length]

theorem sleepOffers_short (s : State) (c : Cmd) : (sleepOffers s c).Short := by
  unfold sleepOffers
  split
  · exact Offers.short_single _ _ rfl
  · exact Offers.short_single _ _ rfl
  · exact Offers.short_none

theorem State.takeCommand_changes (s : State) (c : Cmd) (hk : Allows K c.arrival) :
    s.Changes I K (s.takeCommand c) := by
  obtain ⟨-, checker, -⟩ := c.arrival_named
  have taken := ((s.judged_changes c (hk _ checker) hk.hands.alert).trans
    (State.trackArrival_changes _ c hk)).trans (State.shadow_arrival_changes (I := I) _ c hk)
  have tracked := (s.judged c).trackArrival_short c
  have violated := s.violate_short c (brokenRules s c)
  rw [s.takeCommand_eq]
  exact ((taken.trans (State.join_changes _ _ _)).trans (State.join_changes _ _ _)).trans
    (State.handOut_changes _ _ hk.hands
      (State.join_short _ (State.join_short _ violated tracked) (sleepOffers_short s c)))

theorem State.sampleCommand_changes (s : State) (w : ChannelWord) (hk : K .forwarding) :
    s.Changes I K (s.sampleCommand w) :=
  (s.fwd_changes { s.fwd with rxCommand := some w } hk rfl).trans (State.turn_changes _ _ rfl)

theorem State.arrive_changes (s : State) (c : Cmd) (hk : Allows K c.arrival) : s.Changes I K (s.arrive c) := by
  obtain ⟨-, -, forwarding⟩ := c.arrival_named
  unfold State.arrive
  split
  · exact .refl s
  · exact (s.sampleCommand_changes _ (hk _ forwarding)).trans (State.takeCommand_changes _ c hk)

/-! ### Auto-close completions -/

theorem Bank.row_afterCompletion (e : Bank) (now : Slot) : (e.afterCompletion now).row = none := rfl

theorem State.completeAutoClose_changes (s : State) (b : BankNo) (hk : K .shadow) :
    s.Changes I K (s.completeAutoClose b) := by
  unfold State.completeAutoClose
  split
  · exact s.banks_changes _ hk fun h => Vector.forall_set (P := fun e : Bank => e.row = none) h _ b.isLt rfl
  · exact .refl s

theorem State.mapBanks_changes (s : State) (f : Bank → Bank) (hk : K .shadow)
    (hf : ∀ e, e.row = none → (f e).row = none) : s.Changes I K (s.mapBanks f) :=
  s.banks_changes _ hk fun h k => by simpa using hf _ (h k)

theorem State.allCompletions_changes (s : State) (hk : K .shadow) : s.Changes I K s.allCompletions := by
  refine s.mapBanks_changes _ hk fun e he => ?_
  split
  · rfl
  · exact he

/-! ### Resets of the channel -/

theorem State.checker_changes (s : State) (c : Checker) (hk : K .checker) (hr : K .program ∨ c.rules = s.checker.rules)
    (hb : s.checker.Inv → c.Inv) (hf : K .clearViolations ∨ K .softReset ∨ c.first = s.checker.first)
    (hc : K .clearCounts ∨ K .softReset ∨ c.counts = s.checker.counts) : s.Changes I K (s.setChecker c) :=
  (State.Change.checker (s := s) c hk hr hb
    (hf.imp_right fun h => h.imp_right fun e f he => e.trans he)
    (hc.imp_right fun h => h.imp_right fun e _ n => by rw [e])).chain

theorem State.forgetSpacing_changes (s : State) (hk : K .checker) :
    s.Changes I K (s.setChecker s.checker.forgetSpacing) :=
  s.checker_changes _ hk (.inr rfl) (fun ⟨hcounts, hrules, _, hfirst⟩ => ⟨hcounts, hrules, Nat.zero_le 8, hfirst⟩)
    (.inr (.inr rfl)) (.inr (.inr rfl))

theorem State.emptied_changes (s : State) (w : List Entry) (hk : K .tracker) :
    s.Changes I K { s with tracker := [], waiting := w } :=
  (State.Change.tracker (s := s) [] w s.nextNumber hk (fun _ => (State.trackerInv_iff _).mpr (Whole.nil _))
    fun _ _ => rfl).chain

/-- The shadow takes the values of a reset, once no entry is in flight. -/
theorem State.shadowReset_changes (s : State) (chan : ChanState) (state : BankState) (mrst : Bool) (hk : K .shadow)
    (hf : mrst = s.fwd.mrst ∨ K .forwarding) (he : s.tracker = [])
    (hc : s.ChannelInv → (chan = .resetHeld ↔ mrst = true)) (hb : (Bank.blank state).row = none) :
    s.Changes I K
      { s with
        chan := chan, banks := Vector.replicate 16 (Bank.blank state), modes := Modes.invalid
        fwd := { s.fwd with mrst := mrst } } := by
  refine (State.Change.shadow (s := s) chan _ _ mrst hk hf (fun h => ⟨hc h, fun _ => ⟨fun b => ?_, rfl, he⟩⟩)
    fun _ => Modes.invalid_inv).chain
  simpa [State.bank] using hb

theorem Offers.short_record (r : Record) (h : r.length = 1) : Offers.Short { occurrences := [], records := [r] } :=
  Offers.short_single [] r h

theorem State.assertReset_changes (s : State) (hk : Tracks K) (hs : K .shadow) (hc : K .checker) (hf : K .forwarding)
    (hI : I → s.TrackerInv) : s.Changes I K s.assertReset := by
  have emptied := s.emptied_changes (I := I) s.waiting hk.tracker
  have reset := emptied.trans (State.shadowReset_changes _ .resetHeld .closed true hs (.inr hf) rfl (by simp) rfl)
  have cleared := (reset.trans (State.forgetSpacing_changes _ hc)).trans
    (State.turn_changes _ { s.turns with mrst := true } rfl)
  exact State.abandonWith_changes (t := State.setLatch
      { s with
        chan := .resetHeld, banks := Vector.replicate 16 (Bank.blank .closed), modes := Modes.invalid
        checker := s.checker.forgetSpacing, fwd := { s.fwd with mrst := true }
        turns := { s.turns with mrst := true } } .memreset)
    (cleared.trans (State.setLatch_changes _ .memreset hk.alert)) _ hk (Offers.short_record _ rfl)
    fun hi => (s.trackerInv_iff.mp (hI hi)).entries

theorem State.forgetShadow_changes (s : State) (hk : Tracks K) (hs : K .shadow) (hc : K .checker)
    (hI : I → s.TrackerInv) : s.Changes I K s.forgetShadow := by
  have emptied := s.emptied_changes (I := I) s.waiting hk.tracker
  have reset := emptied.trans (State.shadowReset_changes _ s.chan .unknown s.fwd.mrst hs (.inl rfl) rfl
    (fun h => h.1) rfl)
  exact State.abandonWith_changes (t :=
      { s with
        banks := Vector.replicate 16 (Bank.blank .unknown), modes := Modes.invalid
        checker := s.checker.forgetSpacing })
    (reset.trans (State.forgetSpacing_changes _ hc)) _ hk (Offers.short_record _ rfl)
    fun hi => (s.trackerInv_iff.mp (hI hi)).entries

theorem State.releaseReset_changes (s : State) (hs : K .shadow) (hf : K .forwarding) (hc : K .capture) (ha : K .alert) :
    s.Changes I K s.releaseReset := by
  have live : (if s.chan = .resetHeld then ChanState.live else s.chan) ≠ .resetHeld := by
    split
    · simp
    · assumption
  have released := (State.Change.shadow (I := I) (s := s) (if s.chan = .resetHeld then .live else s.chan) s.banks s.modes
    false hs (.inr hf) (fun _ => ⟨⟨fun h => absurd h live, nofun⟩, fun h => absurd h live⟩) fun h => h).chain
  exact (released.trans (State.turn_changes _ { s.turns with mrst := true } rfl)).trans
    (State.offerEvent_changes _ _ hc ha (by simp [Record.length]))

end

end Sys2Proof.Machine
end

section
/-! SUPPORT. The requests and every command as chains of changes (`exec_changes`). -/
namespace Sys2Proof.Machine

/-! ### What a write leaves in a table is legal -/

theorem ruleOf_range {n : Nat} {v : BitVec 24} {r : Rule} (h : ruleOf n v = some r) :
    ruleInRange n r.value r.value2 = true := by
  simp only [ruleOf, Option.ite_none_right_eq_some, Option.some.injEq] at h
  obtain ⟨hr, rfl⟩ := h
  exact hr

theorem windowActionsOf_data (b : Byte) (h : (windowActionsOf b).captureData = true) :
    (windowActionsOf b).capture = true := by
  have hbit : b.getLsbD 2 = true := h
  simp [windowActionsOf, hbit]

theorem windowOf_range {v : BitVec 280} {f : WindowFields} (h : windowOf v = some f) :
    f.low ≤ f.high ∧ (f.actions.captureData = true → f.actions.capture = true) := by
  unfold windowOf at h
  simp only at h
  split at h
  · next hr =>
    obtain ⟨hle, hlow, hhigh⟩ := hr
    split at h
    · rw [← Option.some.inj h]
      refine ⟨?_, windowActionsOf_data _⟩
      unfold maxFlatAddress at hlow hhigh
      rw [BitVec.le_def, BitVec.toNat_setWidth, BitVec.toNat_setWidth, Nat.mod_eq_of_lt (by omega),
        Nat.mod_eq_of_lt (by omega)]
      exact hle
    · cases h
  · cases h

theorem stageFrom_legal {v : BitVec 160} {st : Stage} (h : stageFrom v = some st) : st.Inv := by
  simp only [stageFrom, bind, Option.bind_eq_some_iff] at h
  obtain ⟨_, -, _, -, _, -, _, -, _, -, _, -, _, -, _, -, _, -, h⟩ := h
  split at h
  · next hl =>
    rw [← Option.some.inj h]
    exact hl
  · cases h

theorem cueOf_width {v : BitVec 32} {f : CueFields} (h : cueOf v = some f) : f.width ≠ 0 := by
  unfold cueOf at h
  split at h
  · split at h
    · cases h
    · next hw =>
      rw [← Option.some.inj h]
      exact hw
  · cases h

theorem mapWith_range {m m' : AddrMap} {item : MapItem} {value : Byte} (h : mapWith m item value = some m')
    (hm : m.Inv) : m'.Inv := by
  obtain ⟨hr, hr', hc, hc'⟩ := hm
  cases item with
  | order =>
    obtain ⟨o, -, rfl⟩ := Option.map_eq_some_iff.mp h
    exact ⟨hr, hr', hc, hc'⟩
  | rowWidth =>
    obtain ⟨r, hr, rfl⟩ := Option.map_eq_some_iff.mp h
    unfold rowBitsOf at hr
    split at hr
    · next hb => exact ⟨Option.some.inj hr ▸ hb.1, Option.some.inj hr ▸ hb.2, hc, hc'⟩
    · cases hr
  | columnWidth =>
    obtain ⟨c, hc, rfl⟩ := Option.map_eq_some_iff.mp h
    unfold colBitsOf at hc
    split at hc
    · next hb => exact ⟨hr, hr', Option.some.inj hc ▸ hb.1, Option.some.inj hc ▸ hb.2⟩
    · cases hc

theorem Cue.Inv.rewrite {c : Cue} (h : c.Inv) {f : CueFields} (hw : f.width ≠ 0) : (c.rewrite f).Inv := by
  obtain ⟨-, hle, hrun, hpulse⟩ := h
  by_cases hf : c.function = f.function
  · simp only [Cue.rewrite, hf, if_true]
    exact ⟨hw, hle, hrun, hf ▸ hpulse⟩
  · simp only [Cue.rewrite, hf, if_false]
    exact ⟨hw, Nat.zero_le _, fun h => absurd rfl h, nofun⟩

theorem Checker.default_inv : Checker.default.Inv := by decide

theorem Window.default_inv : Window.default.Inv := by decide

theorem Sequencer.default_stages_legal : ∀ st ∈ Sequencer.default.stages.toList, st.Inv := by decide

theorem Cue.default_inv (board : Bool) : (Cue.default board).Inv := by cases board <;> decide

section
variable {I : Prop} {K : Effect → Prop}

/-! ### The tables -/

theorem State.setAlert_changes (s : State) (a : Alert) (hk : K .alert)
    (he : K .program ∨ a.globalOn = s.alert.globalOn ∧ a.enables = s.alert.enables)
    (hl : K .acknowledge ∨ K .softReset ∨ a.latches = s.alert.latches) : s.Changes I K { s with alert := a } :=
  (State.Change.alert (s := s) a hk he
    (hl.imp_right fun h => h.imp_right fun e => by rw [e, BitVec.and_self])).chain

theorem State.setWindow_changes (s : State) (i : Nat) (hi : i < 16) (w : Window) (hk : K .windows) (hp : K .program)
    (hl : s.windows[i].locked = true → w.locked = true) (hb : s.windows[i].Inv → w.Inv)
    (hc : w.hitCount = s.windows[i].hitCount) : s.Changes I K { s with windows := s.windows.set i w hi } := by
  have get (k : Fin 16) : (s.windows.set i w hi)[k] = if i = k.val then w else s.windows[k] := by
    simp [Vector.getElem_set]
  refine (State.Change.windows (s := s) _ hk (.inl hp) (.inr fun k hlocked => ?_) (fun h k => ?_)
    (.inr fun k => .inr fun _ => ?_)).chain
  all_goals rw [get k]; split
  · next e => subst e; exact hl hlocked
  · exact hlocked
  · next e => subst e; exact hb (h k)
  · exact h k
  · next e => subst e; exact Nat.le_of_eq hc.symm
  · exact Nat.le_refl _

theorem State.lockWindow_changes (s : State) (number : Byte) (hk : K .windows) (hp : K .program) :
    s.Changes I K (s.lockWindow number).1 := by
  unfold State.lockWindow
  split
  · exact s.setWindow_changes _ _ _ hk hp (fun _ => rfl) (fun h => h) rfl
  · exact .refl s

theorem State.withoutWindow_changes (s : State) (k : Nat) (hk : K .tracker) :
    s.Changes I K { s with tracker := s.tracker.map (Entry.withoutWindow k) } :=
  s.tracker_changes _ hk (fun w => w.map (fun _ _ => rfl) (fun _ _ h => h) fun _ _ h => h) fun h => by simp [h]

theorem State.writeWindow_changes (s : State) (index : Byte) (value : BitVec 280) (hk : K .windows) (hp : K .program)
    (ht : K .tracker) : s.Changes I K (s.writeWindow index value).1 := by
  unfold State.writeWindow
  split
  · next hi =>
    split
    · exact .refl s
    · next hlock =>
      split
      · next f hf =>
        obtain ⟨hrange, hdata⟩ := windowOf_range hf
        exact (s.withoutWindow_changes index.toNat ht).trans (State.setWindow_changes _ _ hi _ hk hp (fun h => h)
          (fun ⟨_, hcount, _⟩ => ⟨hrange, hcount, hdata⟩) rfl)
      · exact .refl s
  · exact .refl s

theorem State.writeRule_changes (s : State) (index : Byte) (value : BitVec 24) (hk : K .checker) (hp : K .program) :
    s.Changes I K (s.writeRule index value).1 := by
  unfold State.writeRule
  split
  · next hi =>
    split
    · next r hr =>
      refine s.checker_changes _ hk (.inl hp) (fun ⟨hcounts, hrules, hrolling, hfirst⟩ => ?_) (.inr (.inr rfl))
        (.inr (.inr rfl))
      refine ⟨hcounts, fun n => ?_, hrolling, hfirst⟩
      by_cases hn : index.toNat = n.val
      · simpa [hn] using hn ▸ ruleOf_range hr
      · simpa [Vector.getElem_set_ne, hn] using hrules n
    · exact .refl s
  · exact .refl s

theorem State.writeStage_changes (s : State) (index : Byte) (value : BitVec 160) (hk : K .sequencer) (hp : K .program) :
    s.Changes I K (s.writeStage index value).1 := by
  unfold State.writeStage
  split
  · next hi =>
    split
    · exact .refl s
    · next harmed =>
      split
      · next st hst =>
        split
        · exact .refl s
        · next hsoft =>
          refine (State.Change.sequencer (s := s) _ hk (.inl hp) (fun inv => ?_) fun hu _ => absurd hu hsoft).chain
          obtain ⟨places, idle, triggered, -, -, table⟩ := inv
          have empty : s.seq.queue = [] := by
            cases hs : s.seq.state with
            | idle =>
              obtain ⟨-, -, -, -, hq⟩ := idle hs
              exact hq
            | armed => exact absurd hs harmed
            | triggered =>
              obtain ⟨-, -, -, hq⟩ := triggered hs
              exact hq
          refine ⟨places, idle, triggered, fun h => absurd h harmed, by simp [empty], fun x hx => ?_⟩
          rcases Vector.mem_or_eq_of_mem_set (hi := hi) (Vector.mem_toList_iff.mp hx) with hx | hx
          · exact table x (Vector.mem_toList_iff.mpr hx)
          · exact hx ▸ stageFrom_legal hst
      · exact .refl s
  · exact .refl s

theorem State.settingWrite_changes (s : State) (f : Option Capture) (hk : K .capture) (hp : K .program)
    (hs : ∀ c, f = some c → c.store = s.capture.store ∧ (s.capture.Inv → c.Inv)) :
    s.Changes I K (s.settingWrite f).1 := by
  unfold State.settingWrite
  split
  · obtain ⟨store, inv⟩ := hs _ rfl
    exact s.setCapture_changes _ hk (.inl hp) (.inr store) inv
  · exact .refl s

/-- A value in range that changes settings alone. -/
theorem State.settingsWrite_changes {α : Type} (s : State) (x : Option α) (f : α → TraceSettings) (hk : K .capture)
    (hp : K .program) : s.Changes I K (s.settingWrite (x.map fun a => s.capture.withSettings (f a))).1 := by
  refine s.settingWrite_changes _ hk hp fun c hc => ?_
  obtain ⟨a, -, rfl⟩ := Option.map_eq_some_iff.mp hc
  exact ⟨rfl, fun h => h⟩

theorem Capture.withArbiterMode_store (c : Capture) (rotating : Bool) :
    (c.withArbiterMode rotating).store = c.store := by
  unfold Capture.withArbiterMode
  split <;> rfl

theorem State.writeTrace_changes (s : State) (index : Byte) (value : BitVec 16) (hk : K .capture) (hp : K .program) :
    s.Changes I K (s.writeTrace index value).1 := by
  unfold State.writeTrace
  simp only
  split
  · split
    · exact .refl s
    · exact s.settingsWrite_changes _ _ hk hp
  · split
    · exact .refl s
    · refine s.settingWrite_changes _ hk hp fun c hc => ?_
      obtain ⟨rotating, -, rfl⟩ := Option.map_eq_some_iff.mp hc
      exact ⟨s.capture.withArbiterMode_store rotating, fun h => h.withArbiterMode rotating⟩
  · exact s.settingsWrite_changes _ _ hk hp
  · exact s.settingsWrite_changes _ _ hk hp
  · exact s.settingsWrite_changes _ _ hk hp
  · exact s.settingsWrite_changes _ _ hk hp
  · exact s.settingsWrite_changes _ _ hk hp
  · exact .refl s

theorem State.writeAlert_changes (s : State) (value : BitVec 24) (hk : K .alert) (hp : K .program) :
    s.Changes I K (s.writeAlert value).1 := by
  unfold State.writeAlert
  split
  · exact s.setAlert_changes _ hk (.inl hp) (.inr (.inr rfl))
  · exact .refl s

theorem State.writeCue_changes (s : State) (index : Byte) (value : BitVec 32) (hk : K .cues) (hp : K .program) :
    s.Changes I K (s.writeCue index value).1 := by
  unfold State.writeCue
  split
  · next hi =>
    split
    · next f hf =>
      exact (State.Change.cues (s := s) _ hk (.inl hp) fun h =>
        Vector.forall_set h _ hi ((h ⟨index.toNat, hi⟩).rewrite (cueOf_width hf))).chain
    · exact .refl s
  · exact .refl s

theorem State.setSettings_changes (s : State) (m : AddrMap) (b : BlindPolicy) (i : IntervalSel) (hp : K .program)
    (hm : s.map.Inv → m.Inv) : s.Changes I K { s with map := m, blind := b, interval := i } :=
  (State.Change.settings (s := s) m b i hp hm).chain

theorem State.writeTime_changes (s : State) (value : BitVec 56) (hp : K .program) :
    s.Changes I K (s.writeTime value).1 := by
  unfold State.writeTime
  split
  · exact s.setSettings_changes s.map s.blind _ hp fun h => h
  · exact .refl s

theorem State.channelWrite_changes (s : State) (f : Option State) (h : ∀ t, f = some t → s.Changes I K t) :
    s.Changes I K (s.channelWrite f).1 := by
  unfold State.channelWrite
  split
  · exact .refl s
  · split
    · exact .refl s
    · split
      · exact h _ rfl
      · exact .refl s

theorem State.writeMap_changes (s : State) (item : MapItem) (value : Byte) (hp : K .program) :
    s.Changes I K (s.writeMap item value).1 := by
  apply s.channelWrite_changes
  intro t h
  obtain ⟨m, hm, rfl⟩ := Option.map_eq_some_iff.mp h
  exact s.setSettings_changes m s.blind s.interval hp (mapWith_range hm)

theorem State.writeBlind_changes (s : State) (value : Byte) (hp : K .program) :
    s.Changes I K (s.writeBlind value).1 := by
  apply s.channelWrite_changes
  intro t h
  obtain ⟨b, -, rfl⟩ := Option.map_eq_some_iff.mp h
  exact s.setSettings_changes s.map b s.interval hp fun h => h

theorem State.writeItem_changes (s : State) (group index : Byte) (value : List Byte)
    (hk : Allows K (.writeItem group index value)) : s.Changes I K (s.writeItem group index value).1 := by
  have program := hk .program rfl
  unfold State.writeItem
  split
  · exact .refl s
  · split
    · split
      · exact s.writeMap_changes _ _ program
      · exact s.writeMap_changes _ _ program
      · exact s.writeMap_changes _ _ program
      · exact s.writeBlind_changes _ program
    · exact s.writeRule_changes _ _ (hk .checker rfl) program
    · exact s.writeWindow_changes _ _ (hk .windows rfl) program (hk .tracker rfl)
    · exact s.writeStage_changes _ _ (hk .sequencer rfl) program
    · exact s.writeTrace_changes _ _ (hk .capture rfl) program
    · exact s.writeAlert_changes _ (hk .alert rfl) program
    · exact s.writeCue_changes _ _ (hk .cues rfl) program
    · exact s.writeTime_changes _ program
    · exact .refl s

/-! ### The other requests -/

theorem State.readTrace_changes (s : State) (hc : K .capture) (hs : K .store) : s.Changes I K s.readTrace.1 := by
  have inv := s.readTrace_inv
  unfold State.readTrace at inv ⊢
  split at inv
  · exact .refl s
  · exact s.setCapture_changes _ hc (.inr rfl) (.inl hs) inv

theorem State.acknowledge_changes (s : State) (causes : BitVec 16) (ha : K .alert) (hk : K .acknowledge) :
    s.Changes I K (s.acknowledge causes).1 := by
  unfold State.acknowledge
  split
  · exact s.setAlert_changes _ ha (.inr ⟨rfl, rfl⟩) (.inl hk)
  · exact .refl s

theorem State.flushCapture_changes (s : State) (hc : K .capture) (hs : K .store) :
    s.Changes I K s.flushCapture.1 := by
  have inv := s.flushCapture_inv
  unfold State.flushCapture at inv ⊢
  split
  · exact .refl s
  · next hr =>
    rw [if_neg hr] at inv
    exact s.setCapture_changes _ hc (.inr rfl) (.inl hs) inv

theorem State.armSequencer_changes (s : State) (hk : Hands K) : s.Changes I K s.armSequencer := by
  unfold State.armSequencer
  split
  · exact .refl s
  · next hu =>
    exact (State.enterStage_changes (State.Changes.refl (s.setSeq { s.seq with queue := [] })) hk.sequencer rfl
      (List.nil_sublist _) (.inr (by simpa using hu)) 0).trans
      (State.offerEvent_changes _ _ hk.capture hk.alert (by simp [Record.length]))

/-- The sequencer in IDLE with a legal table. -/
theorem State.idle_changes (s : State) (stages : Vector Stage 8) (hk : K .sequencer)
    (hp : K .program ∨ stages = s.seq.stages)
    (hl : (∀ st ∈ s.seq.stages.toList, st.Inv) → ∀ st ∈ stages.toList, st.Inv)
    (hd : s.seq = Sequencer.default → stages = Sequencer.default.stages) :
    s.Changes I K (s.setSeq { Sequencer.default with stages := stages }) := by
  refine (State.Change.sequencer (s := s) _ hk hp (fun inv => ?_) fun _ h => ?_).chain
  · obtain ⟨-, -, -, -, -, table⟩ := inv
    exact ⟨Nat.zero_le _, fun _ => ⟨rfl, rfl, rfl, rfl, rfl⟩, nofun, nofun, nofun, hl table⟩
  · rw [hd h]

theorem State.disarm_changes (s : State) (hk : K .sequencer) : s.Changes I K s.disarmSequencer :=
  s.idle_changes s.seq.stages hk (.inr rfl) (fun h => h) fun h => by rw [h]

theorem State.clearHits_changes (s : State) (hw : K .windows) (hk : K .clearCounts) :
    s.Changes I K { s with windows := Vector.ofFn fun k => s.windows[k].clearCount } := by
  have get (k : Fin 16) : (Vector.ofFn fun k : Fin 16 => s.windows[k].clearCount)[k] = s.windows[k].clearCount := by simp
  refine (State.Change.windows (s := s) _ hw (.inr fun k => ?_) (.inr fun k hl => ?_) (fun h k => ?_) (.inl hk)).chain
  all_goals rw [get k]
  · exact ⟨rfl, rfl⟩
  · exact hl
  · obtain ⟨hrange, -, hdata⟩ := h k
    exact ⟨hrange, Nat.zero_le _, hdata⟩

theorem State.clearCounts_changes (s : State) (hc : K .checker) (hw : K .windows) (hk : K .clearCounts) :
    s.Changes I K s.clearCounts :=
  (s.clearHits_changes hw hk).trans (State.checker_changes _ { s.checker with counts := Vector.replicate 22 0 } hc
    (.inr rfl) (fun ⟨_, hrules, hrolling, hfirst⟩ => ⟨by simp, hrules, hrolling, hfirst⟩) (.inr (.inr rfl)) (.inl hk))

theorem State.setPins_changes (s : State) (value : Byte) (hk : K .cues) (hp : K .program) :
    s.Changes I K (s.setPins value) := by
  refine s.mapCues_changes (fun p c => if value.getLsbD (4 + p.val) then { c with latch := value.getLsbD p.val } else c)
    hk (.inl hp) fun p c h => ?_
  split <;> exact h

theorem State.softWindows_changes (s : State) (hk : K .windows) (hp : K .program) (hr : K .softReset) :
    s.Changes I K { s with windows := Vector.ofFn fun k => s.windows[k].softReset } := by
  have get (k : Fin 16) : (Vector.ofFn fun k : Fin 16 => s.windows[k].softReset)[k] = s.windows[k].softReset := by simp
  refine (State.Change.windows (s := s) _ hk (.inl hp) (.inr fun k hl => ?_) (fun h k => ?_) (.inr fun k => ?_)).chain
  · rw [get, Window.softReset, if_pos hl]
    exact hl
  · rw [get, Window.softReset]
    split
    · exact h k
    · exact Window.default_inv
  · rw [get, Window.softReset]
    split
    · exact .inr fun _ => Nat.le_refl _
    · next hl => exact .inl ⟨hr, by simpa using hl⟩

theorem State.resetSoftly_changes (s : State) (hk : Allows K .softReset) : s.Changes I K s.resetSoftly := by
  have program := hk .program rfl
  have soft := hk .softReset rfl
  have line : (if s.fwd.mrst then ChanState.resetHeld else .live) = .resetHeld ↔ s.fwd.mrst = true := by
    split <;> simp_all
  have shadowed := (s.emptied_changes (I := I) [] (hk .tracker rfl)).trans
    (State.shadowReset_changes _ (if s.fwd.mrst then .resetHeld else .live) .unknown s.fwd.mrst (hk .shadow rfl)
      (.inl rfl) rfl (fun _ => line) rfl)
  have checked := shadowed.trans (State.checker_changes _ Checker.default (hk .checker rfl) (.inl program)
    (fun _ => Checker.default_inv) (.inr (.inl soft)) (.inr (.inl soft)))
  have tabled := (checked.trans (State.softWindows_changes _ (hk .windows rfl) program soft)).trans
    (State.idle_changes _ Sequencer.default.stages (hk .sequencer rfl) (.inl program)
      (fun _ => Sequencer.default_stages_legal) fun _ => rfl)
  have captured := (tabled.trans (State.setCapture_changes _ { Capture.default with note := some s.now } (hk .capture rfl)
    (.inl program) (.inl (hk .store rfl)) fun _ => Capture.default_inv _)).trans
    (State.setAlert_changes _ { Alert.default with latches := s.alert.latches &&& Cause.guardLocked.set } (hk .alert rfl)
      (.inl program) (.inr (.inl soft)))
  have pinned := captured.trans (State.mapCues_changes _ (fun _ c => c.softReset) (hk .cues rfl) (.inl program)
    fun _ c _ => Cue.default_inv c.board)
  exact (pinned.trans (State.setSettings_changes _ s.map s.blind .p20 program fun h => h)).trans
    (State.turns_changes _ { s.turns with softReset := true, readTaken := none } (.inr fun _ => rfl))

theorem Bank.row_timeClear (e : Bank) (now : Slot) : (e.timeClear now).row = none ↔ e.row = none := by
  obtain ⟨state, _, _, _, _⟩ := e
  cases state <;> simp [Bank.timeClear, Bank.blank, Bank.row]

/-- The slots of every entry move with the timebase (R61). -/
theorem State.moveEntries_changes (s : State) (now : Slot) (hk : K .tracker) :
    s.Changes I K
      { s with tracker := s.tracker.map (Entry.timeClear now), waiting := s.waiting.map (Entry.timeClear now) } :=
  (State.Change.tracker (s := s) (s.tracker.map (Entry.timeClear now)) (s.waiting.map (Entry.timeClear now))
    s.nextNumber hk
    (fun h => (State.trackerInv_iff _).mpr
      ((s.trackerInv_iff.mp h).map (fun _ _ => rfl) (fun _ _ h => h) fun _ _ h => h))
    fun _ h => List.map_eq_nil_iff.mpr h).chain

/-- The expiry slot moves with the timebase (R133). -/
theorem State.moveExpiry_changes (s : State) (now : Slot) (hk : K .sequencer) :
    s.Changes I K (s.setSeq { s.seq with expiry := s.seq.expiry.map (movedSlot now) }) := by
  refine (State.Change.sequencer (s := s) { s.seq with expiry := s.seq.expiry.map (movedSlot now) } hk (.inr rfl)
    (fun inv => ?_) fun _ h => ?_).chain
  · obtain ⟨places, idle, triggered, armed, uses, table⟩ := inv
    refine ⟨places, fun h => ?_, fun h => ?_, fun h => ?_, uses, table⟩
    · obtain ⟨hstage, hcount, hexpiry, rest⟩ := idle h
      exact ⟨hstage, hcount, Option.map_eq_none_iff.mpr hexpiry, rest⟩
    · obtain ⟨hcount, hexpiry, rest⟩ := triggered h
      exact ⟨hcount, Option.map_eq_none_iff.mpr hexpiry, rest⟩
    · obtain ⟨hcount, hexpiry⟩ := armed h
      exact ⟨hcount, Option.map_eq_none_iff.trans hexpiry⟩
  · rw [h]
    rfl

theorem State.clock_changes (s : State) (n : Slot) (hk : K .clock) : s.Changes I K { s with now := n } :=
  (State.Change.clock (s := s) n hk).chain

theorem State.clearTime_changes (s : State) (hk : Allows K .timeClear) : s.Changes I K s.clearTime := by
  have banked : s.Changes I K (s.mapBanks (Bank.timeClear s.now)) :=
    s.mapBanks_changes _ (hk .shadow rfl) fun e he => (e.row_timeClear s.now).mpr he
  have tracked := banked.trans (State.moveEntries_changes _ s.now (hk .tracker rfl))
  have checked := tracked.trans (State.forgetSpacing_changes _ (hk .checker rfl))
  have sequenced := checked.trans (State.moveExpiry_changes _ s.now (hk .sequencer rfl))
  have turned := sequenced.trans (State.turn_changes _ { s.turns with byAdvance := false } rfl)
  have moved := turned.trans (State.clock_changes _ 0 (hk .clock rfl))
  simpa only [State.clearTime, State.setSeq, State.setChecker, State.mapBanks] using moved

/-! ### A request takes effect -/

theorem State.requestEffect_changes {s t : State} {c : Instr} {a : Answer} (h : s.requestEffect c = some (t, a))
    (hk : Allows K c) (hI : I → s.TrackerInv) : s.Changes I K t := by
  have of (p : State × Answer) (hp : s.Changes I K p.1) (e : some p = some (t, a)) : s.Changes I K t := by
    rw [Option.some.inj e] at hp
    exact hp
  cases c with
  | readItem g i =>
    refine of _ ?_ h
    unfold State.readItem
    split <;> exact .refl s
  | readStatus => exact of _ (.refl s) h
  | readTrace => exact of _ (s.readTrace_changes (hk .capture rfl) (hk .store rfl)) h
  | ack x => exact of _ (s.acknowledge_changes x (hk .alert rfl) (hk .acknowledge rfl)) h
  | captureStart => exact of _ (s.startCapture_changes (hk .capture rfl) (hk .alert rfl)) h
  | captureStop => exact of _ (s.stopCapture_changes (hk .capture rfl)) h
  | flush => exact of _ (s.flushCapture_changes (hk .capture rfl) (hk .store rfl)) h
  | arm => exact of _ (s.armSequencer_changes ⟨hk .sequencer rfl, hk .capture rfl, hk .alert rfl⟩) h
  | disarm => exact of _ (s.disarm_changes (hk .sequencer rfl)) h
  | lockWindow n => exact of _ (s.lockWindow_changes n (hk .windows rfl) (hk .program rfl)) h
  | clearCounts =>
    exact of _ (s.clearCounts_changes (hk .checker rfl) (hk .windows rfl) (hk .clearCounts rfl)) h
  | clearViolations =>
    refine of _ (s.checker_changes { s.checker with first := none } (hk .checker rfl) (.inr rfl) ?_
      (.inl (hk .clearViolations rfl)) (.inr (.inr rfl))) h
    rintro ⟨hcounts, hrules, hrolling, -⟩
    exact ⟨hcounts, hrules, hrolling, nofun⟩
  | timeClear => exact of _ (s.clearTime_changes hk) h
  | shadowForget =>
    exact of _ (s.forgetShadow_changes
      ⟨⟨hk .sequencer rfl, hk .capture rfl, hk .alert rfl⟩, hk .tracker rfl, hk .windows rfl, hk .cues rfl⟩
      (hk .shadow rfl) (hk .checker rfl) hI) h
  | setPins v => exact of _ (s.setPins_changes v (hk .cues rfl) (hk .program rfl)) h
  | softReset => exact of _ (s.resetSoftly_changes hk) h
  | unknownRequest code =>
    change (if _ then none else some (s, _)) = _ at h
    split at h
    · cases h
    · exact of _ (.refl s) h
  | writeAddressMap i v => exact of _ (s.writeMap_changes i v (hk .program rfl)) h
  | writeBlindPolicy v => exact of _ (s.writeBlind_changes v (hk .program rfl)) h
  | writeRule i v => exact of _ (s.writeRule_changes i v (hk .checker rfl) (hk .program rfl)) h
  | writeWindow i v =>
    exact of _ (s.writeWindow_changes i v (hk .windows rfl) (hk .program rfl) (hk .tracker rfl)) h
  | writeStage i v => exact of _ (s.writeStage_changes i v (hk .sequencer rfl) (hk .program rfl)) h
  | writeTraceSetting i v => exact of _ (s.writeTrace_changes i v (hk .capture rfl) (hk .program rfl)) h
  | writeAlertEnables v => exact of _ (s.writeAlert_changes v (hk .alert rfl) (hk .program rfl)) h
  | writeCue i v => exact of _ (s.writeCue_changes i v (hk .cues rfl) (hk .program rfl)) h
  | writeTime v => exact of _ (s.writeTime_changes v (hk .program rfl)) h
  | writeItem g i v =>
    change (if _ then some (s.writeItem g i v) else none) = _ at h
    split at h
    · exact of _ (s.writeItem_changes g i v hk) h
    · cases h
  | _ => cases h

/-- A request that has an effect answers on the port. -/
theorem reachesPort_of_requestEffect {s : State} {c : Instr} {p : State × Answer} (h : s.requestEffect c = some p) :
    Instr.reachesPort c = true := by
  cases c <;> first
    | rfl
    | cases h

theorem State.port_changes (s : State) (p : Port) (hk : K .port) (h : s.port.Inv → p.Inv) :
    s.Changes I K { s with port := p } :=
  (State.Change.port (s := s) p hk h).chain

theorem State.request_changes (s : State) (c : Instr) (hk : Allows K c) (hI : I → s.TrackerInv) :
    s.Changes I K (s.request c) := by
  unfold State.request
  split
  · exact .refl s
  · next t a h =>
    exact (State.requestEffect_changes h hk hI).trans
      (t.port_changes _ (hk .port (reachesPort_of_requestEffect h)) fun hp => hp.settle a)

theorem State.serveWaiting_changes (s : State) (hk : ∀ c ∈ s.port.waiting, Allows K c) (hI : I → s.TrackerInv) :
    s.Changes I K s.serveWaiting := by
  unfold State.serveWaiting
  split
  · exact .refl s
  · next c hc => exact s.request_changes c (hk c hc) hI

end

end Sys2Proof.Machine
end

section
/-! SUPPORT. The end of a slot, power-on reset, and every command as a chain of changes (`exec_changes`). -/
namespace Sys2Proof.Machine

/-! ### The end of a slot -/

/-- The effects of the events that a slot owes at its end. -/
def Effect.owed : Effect → Bool
  | .shadow | .tracker | .windows | .forwarding | .sequencer | .capture | .store | .alert | .cues => true
  | _ => false

section
variable {I : Prop} {K : Effect → Prop}

theorem State.endPulses_changes (l : List PinNo) (s : State) (hk : K .cues) :
    s.Changes I K (l.foldl State.endPulse s) := by
  induction l generalizing s with
  | nil => exact .refl s
  | cons p l ih => exact (s.endPulse_changes p hk).trans (ih _)

theorem Effect.owed_tracks (hk : ∀ e : Effect, e.owed = true → K e) : Tracks K :=
  ⟨⟨hk .sequencer rfl, hk .capture rfl, hk .alert rfl⟩, hk .tracker rfl, hk .windows rfl, hk .cues rfl⟩

/-- What a slot owes is forwarded first (R9, log entry 2). -/
def State.forwarded (s : State) : State := s.forwardCommand.forwardWrite.forwardRead

/-- The tracker's events that a slot owes, after forwarding and completions (log entry 2). -/
def State.trackerOwed (s : State) : State := (s.allEffects.settleHolder.resolveVoid .write).allDone

/-- The sequencer's turns that a slot owes, after the tracker's events (log entry 2). -/
def State.sequencerOwed (s : State) : State := s.intervalTurn.takeTurn.timeout

/-- What a slot owes after forwarding and completions (log entry 2). -/
def State.owedRest (s : State) : State :=
  allPins.foldl State.endPulse s.trackerOwed.sequencerOwed.unitTurn.pickTurn

theorem State.owedEvents_eq (s : State) : s.owedEvents = s.forwarded.allCompletions.owedRest := rfl

theorem State.forwarded_changes (s : State) (hk : Hands K) (ht : K .tracker) (hf : K .forwarding) :
    s.Changes I K s.forwarded :=
  ((s.forwardCommand_changes hf).trans (State.forwardWrite_changes _ hk ht hf)).trans
    (State.forwardRead_changes _ hf)

theorem State.trackerOwed_changes (s : State) (hk : Tracks K) (hI : I → s.TrackerInv) :
    s.Changes I K s.trackerOwed :=
  (s.allEffects_changes hk hI).andThen hI fun h1 =>
    (State.settleHolder_changes _ hk h1).andThen h1 fun h2 =>
      (State.resolveVoid_changes _ .write hk.tracker).andThen h2 fun h3 => State.allDone_changes _ hk h3

theorem State.sequencerOwed_changes (s : State) (hk : Hands K) (hp : K .cues) : s.Changes I K s.sequencerOwed :=
  ((s.intervalTurn_changes hk).trans (State.takeTurn_changes _ hk hp)).trans (State.timeout_changes _ hk hp)

theorem State.owedRest_changes (s : State) (hk : Tracks K) (hs : K .store) (hI : I → s.TrackerInv) :
    s.Changes I K s.owedRest := by
  have captured (t : State) : t.Changes I K t.unitTurn.pickTurn :=
    (t.unitTurn_changes hk.capture hs).trans (State.pickTurn_changes _ hk.capture hs hk.alert)
  exact ((s.trackerOwed_changes hk hI).trans (State.sequencerOwed_changes _ hk.toHands hk.cues)).trans
    ((captured _).trans (State.endPulses_changes allPins _ hk.cues))

theorem State.owedEvents_changes (s : State) (hk : ∀ e : Effect, e.owed = true → K e) (hI : I → s.TrackerInv) :
    s.Changes I K s.owedEvents := by
  have tracks := Effect.owed_tracks hk
  exact (s.forwarded_changes tracks.toHands tracks.tracker (hk .forwarding rfl)).andThen hI fun h1 =>
    (State.allCompletions_changes _ (hk .shadow rfl)).andThen h1 fun h2 =>
      State.owedRest_changes _ tracks (hk .store rfl) h2

/-- What a slot owes does not reach the port. -/
theorem State.owedEvents_port (s : State) : s.owedEvents.port = s.port :=
  (s.owedEvents_changes (I := False) (K := fun e => e.owed = true) (fun _ h => h) False.elim).port nofun

theorem State.wires_changes (s : State) (w : List (List Wire)) (hk : K .wires) :
    s.Changes I K { s with wires := w } :=
  (State.Change.wires (s := s) w hk).chain

theorem State.takeWires_changes (s : State) (hp : K .port) (hw : K .wires) : s.Changes I K s.takeWires :=
  (s.port_changes _ hp fun h => h.run _).trans (State.wires_changes _ s.wires.tail hw)

theorem State.closeSlot_changes (s : State) (hk : ∀ e : Effect, e.owed = true → K e) (hp : K .port) (hw : K .wires)
    (hr : ∀ c ∈ s.port.waiting, Allows K c) (hI : I → s.TrackerInv) : s.Changes I K s.closeSlot := by
  have tracks := Effect.owed_tracks hk
  have served : s.Changes I K s.lastEvents :=
    (s.owedEvents_changes hk hI).andThen hI fun hI' =>
      State.serveWaiting_changes _ (fun c hc => hr c (s.owedEvents_port ▸ hc)) hI'
  exact (served.trans (State.takeEdges_changes _ tracks.toHands tracks.cues)).trans (State.takeWires_changes _ hp hw)

theorem Cue.Inv.tick {c : Cue} (h : c.Inv) : c.tick.Inv := by
  obtain ⟨hwidth, hle, hrun, hpulse⟩ := h
  exact ⟨hwidth, (Nat.sub_le _ _).trans hle, fun hne => hrun fun h0 => hne (by simp [Cue.tick, h0]), hpulse⟩

theorem State.openSlot_changes (s : State) (hc : K .clock) (ht : K .slot) (hf : K .forwarding) (hk : K .cues) :
    s.Changes I K s.openSlot := by
  have ticked := s.mapCues_changes (I := I) (fun _ c => c.tick) hk (.inr fun _ _ => ⟨rfl, rfl, rfl, rfl⟩)
    fun _ _ h => h.tick
  exact ((ticked.trans (State.clock_changes _ (s.now + 1) hc)).trans (State.turns_changes _ Turns.fresh (.inl ht))).trans
    (State.fwd_changes _ _ hf rfl)

/-! ### Power-on reset -/

theorem Port.released_inv (select : Bool) : (Port.released select).Inv := by
  cases select <;> simp [Port.Inv, Port.released, Port.ready, FramePhase.active]

theorem State.powered_changes (s : State) (porst : Bool) (pins : BitVec 4) (select : Bool) (hk : ∀ e, K e) :
    s.Changes I K (s.powered porst false pins select) := by
  have program := hk .program
  have shadowed := (s.emptied_changes (I := I) [] (hk _)).trans
    (State.shadowReset_changes _ .live .unknown false (hk _) (.inr (hk _)) rfl (by simp) rfl)
  have forwarded := shadowed.trans (State.fwd_changes _ (Forwarding.powerOn false) (hk _) rfl)
  have checked := forwarded.trans (State.checker_changes _ Checker.default (hk _) (.inl program)
    (fun _ => Checker.default_inv) (.inl (hk _)) (.inl (hk _)))
  have windowed := checked.trans (State.Change.windows (Vector.replicate 16 Window.default) (hk _) (.inl program)
    (.inl (hk _)) (fun _ k => by simpa using Window.default_inv) (.inl (hk _))).chain
  have sequenced := windowed.trans (State.idle_changes _ Sequencer.default.stages (hk _) (.inl program)
      (fun _ => Sequencer.default_stages_legal) fun _ => rfl)
  have captured := sequenced.trans (State.setCapture_changes _ Capture.default (hk _) (.inl program) (.inl (hk _))
    fun _ => Capture.default_inv none)
  have alerted := captured.trans (State.setAlert_changes _ Alert.default (hk _) (.inl program) (.inl (hk _)))
  have pinned := alerted.trans (State.mapCues_changes _ (fun p _ => Cue.default (pins.getLsbD p.val)) (hk _)
    (.inl program) fun _ _ _ => Cue.default_inv _)
  have settled := pinned.trans (State.setSettings_changes _ AddrMap.default .pass .p20 program
    fun _ => ⟨by decide, by decide, by decide, by decide⟩)
  have ported := settled.trans (State.port_changes _ (Port.released select) (hk _) fun _ => Port.released_inv select)
  have turned := (ported.trans (State.turns_changes _ Turns.first (.inl (hk _)))).trans
    (State.clock_changes _ 0 (hk _))
  exact turned.trans (State.Change.power porst (hk _)).chain

/-! ### Every command -/

theorem State.whileUp_changes (s : State) (f : State → State) (h : s.porst = false → s.Changes I K (f s)) :
    ∃ t, s.whileUp f = .next t ∧ s.Changes I K t := by
  refine ⟨_, rfl, ?_⟩
  split
  · exact .refl s
  · next hp => exact h (by simpa using hp)

theorem State.serve_changes (s : State) (c : Instr) (hk : Allows K c) (hI : I → s.TrackerInv) :
    ∃ t, s.serve c = .next t ∧ s.Changes I K t := by
  refine s.whileUp_changes _ fun _ => ?_
  split
  · exact s.request_changes c hk hI
  · exact .refl s

/-- A slot's end and the start of the next (R178). -/
theorem State.advance_changes (s : State) (hk : Allows K .slotAdvance) (hr : ∀ c ∈ s.port.waiting, Allows K c)
    (hI : I → s.TrackerInv) : s.Changes I K s.closeSlot.openSlot := by
  have owed (e : Effect) (he : e.owed = true) : K e := by
    cases e <;> first
      | exact hk _ rfl
      | cases he
  exact (s.closeSlot_changes owed (hk .port rfl) (hk .wires rfl) hr hI).trans
    (State.openSlot_changes _ (hk .clock rfl) (hk .slot rfl) (hk .forwarding rfl) (hk .cues rfl))

/-- PORST_N is released (R13, R34): with MRST sampled asserted a memory reset follows at once, which takes the level
with it. -/
theorem State.released_changes (s : State) (x : Sampled) (hk : ∀ e, K e) (hI : I → s.TrackerInv) :
    s.Changes I K
      (let t := (s.powered false x.mrst x.pins x.select).takeWires
       if x.mrst then t.assertReset else t) := by
  have taken : s.Changes I K (s.powered false false x.pins x.select).takeWires :=
    (s.powered_changes false x.pins x.select hk).trans (State.takeWires_changes _ (hk _) (hk _))
  obtain ⟨mrst, pins, select⟩ := x
  cases mrst with
  | false => exact taken
  | true =>
    exact taken.andThen hI fun hI' =>
      State.assertReset_changes _ ⟨⟨hk _, hk _, hk _⟩, hk _, hk _, hk _⟩ (hk _) (hk _) (hk _) hI'

/-- Every command completes, by changes of the blocks that the commands of its event reach. -/
theorem exec_changes_of (c : Instr) (s : State) (hk : ∀ x ∈ s.performs c, Allows K x)
    (hp : Instr.powersOn c = true → ∀ e, K e) (hI : I → s.TrackerInv) :
    ∃ t, exec c s = .next t ∧ s.Changes I K t := by
  have own : Allows K c := hk c List.mem_cons_self
  cases c with
  | openBank b r => exact ⟨_, rfl, s.arrive_changes (.openBank b r) own⟩
  | readBurst b col ac => exact ⟨_, rfl, s.arrive_changes (.access .read b col ac) own⟩
  | writeBurst b col ac => exact ⟨_, rfl, s.arrive_changes (.access .write b col ac) own⟩
  | closeBank b => exact ⟨_, rfl, s.arrive_changes (.closeBank b) own⟩
  | closeAll => exact ⟨_, rfl, s.arrive_changes .closeAll own⟩
  | refresh => exact ⟨_, rfl, s.arrive_changes .refresh own⟩
  | modeLoad i v => exact ⟨_, rfl, s.arrive_changes (.modeLoad i v) own⟩
  | sleepEnter => exact ⟨_, rfl, s.arrive_changes .sleepEnter own⟩
  | sleepExit => exact ⟨_, rfl, s.arrive_changes .sleepExit own⟩
  | undefinedEncoding code =>
    refine ⟨_, rfl, ?_⟩
    split
    · exact .refl s
    · exact s.sampleCommand_changes _ (own .forwarding rfl)
  | forwardCommand => exact s.whileUp_changes _ fun _ => s.forwardCommand_changes (own .forwarding rfl)
  | memoryResetAssertion =>
    apply s.whileUp_changes
    intro _
    split
    · exact .refl s
    · exact s.assertReset_changes
        ⟨⟨own .sequencer rfl, own .capture rfl, own .alert rfl⟩, own .tracker rfl, own .windows rfl, own .cues rfl⟩
        (own .shadow rfl) (own .checker rfl) (own .forwarding rfl) hI
  | memoryResetRelease =>
    apply s.whileUp_changes
    intro _
    split
    · exact .refl s
    · exact s.releaseReset_changes (own .shadow rfl) (own .forwarding rfl) (own .capture rfl) (own .alert rfl)
  | powerOnResetAssert =>
    refine ⟨_, rfl, ?_⟩
    split
    · exact .refl s
    · exact (s.powered_changes true 0 false (hp rfl)).trans (State.wires_changes _ s.wires.tail (hp rfl _))
  | powerOnResetRelease x =>
    refine ⟨_, rfl, ?_⟩
    split
    · exact s.released_changes x (hp rfl) hI
    · exact .refl s
  | writeBeatReceive d0 m0 d1 m1 =>
    apply s.whileUp_changes
    intro _
    split
    · exact .refl s
    · have tracks : Tracks K :=
        ⟨⟨own .sequencer rfl, own .capture rfl, own .alert rfl⟩, own .tracker rfl, own .windows rfl, own .cues rfl⟩
      exact ((s.takeBack_changes (own .forwarding rfl) tracks.tracker).andThen hI
        (State.settleHolder_changes _ tracks)).trans
        (State.receiveWrite_changes _ _ _ (own .forwarding rfl) tracks.tracker)
  | readBeatReceive strobe d0 d1 =>
    apply s.whileUp_changes
    intro _
    split
    · exact .refl s
    · split
      · exact s.turn_changes _ rfl
      · exact s.receiveRead_changes _ _ (own .forwarding rfl) (own .tracker rfl)
  | writeBeatForward =>
    exact s.whileUp_changes _ fun _ => s.forwardWrite_changes
      ⟨own .sequencer rfl, own .capture rfl, own .alert rfl⟩ (own .tracker rfl) (own .forwarding rfl)
  | readBeatForward => exact s.whileUp_changes _ fun _ => s.forwardRead_changes (own .forwarding rfl)
  | voidSlotResolve =>
    have tracks : Tracks K :=
      ⟨⟨own .sequencer rfl, own .capture rfl, own .alert rfl⟩, own .tracker rfl, own .windows rfl, own .cues rfl⟩
    apply s.whileUp_changes
    intro _
    split
    · exact s.resolveVoid_changes _ tracks.tracker
    · split
      · exact (s.allData_changes tracks hI).trans (State.resolveVoid_changes _ _ tracks.tracker)
      · exact .refl s
  | effectSlot place =>
    exact s.whileUp_changes (fun t => t.effectStep (t.numberAt place)) fun _ => s.effectStep_changes _
      ⟨⟨own .sequencer rfl, own .capture rfl, own .alert rfl⟩, own .tracker rfl, own .windows rfl, own .cues rfl⟩
  | dataSlot place =>
    exact s.whileUp_changes (fun t => t.dataStep (t.numberAt place)) fun _ => s.dataStep_changes _
      ⟨⟨own .sequencer rfl, own .capture rfl, own .alert rfl⟩, own .tracker rfl, own .windows rfl, own .cues rfl⟩ hI
  | retireDone place =>
    exact s.whileUp_changes (fun t => t.doneStep (t.numberAt place)) fun _ => s.doneStep_changes _
      ⟨⟨own .sequencer rfl, own .capture rfl, own .alert rfl⟩, own .tracker rfl, own .windows rfl, own .cues rfl⟩ hI
  | autoCloseCompletion b => exact s.whileUp_changes _ fun _ => s.completeAutoClose_changes b (own .shadow rfl)
  | occurrenceTake =>
    exact s.whileUp_changes _ fun _ => s.takeTurn_changes
      ⟨own .sequencer rfl, own .capture rfl, own .alert rfl⟩ (own .cues rfl)
  | stageTimeout =>
    exact s.whileUp_changes _ fun _ => s.timeout_changes
      ⟨own .sequencer rfl, own .capture rfl, own .alert rfl⟩ (own .cues rfl)
  | arbiterPick =>
    exact s.whileUp_changes _ fun _ => s.pickTurn_changes (own .capture rfl) (own .store rfl) (own .alert rfl)
  | unitWrite => exact s.whileUp_changes _ fun _ => s.unitTurn_changes (own .capture rfl) (own .store rfl)
  | pulseEnd p => exact s.whileUp_changes _ fun _ => s.endPulse_changes p (own .cues rfl)
  | cueInputChange p level => exact s.whileUp_changes (State.samplePin · p level) fun _ => s.samplePin_changes p level (own .cues rfl)
  | slotAdvance =>
    refine ⟨_, rfl, ?_⟩
    split
    · exact s.wires_changes _ (own .wires rfl)
    · exact s.advance_changes own (fun c hc => hk c (List.mem_cons_of_mem _ (by simpa using hc))) hI
  | intervalEvent =>
    exact s.whileUp_changes _ fun _ => s.intervalTurn_changes ⟨own .sequencer rfl, own .capture rfl, own .alert rfl⟩
  | frameAborted bytes =>
    apply s.whileUp_changes
    intro _
    split
    · exact .refl s
    · exact s.port_changes _ (own .port rfl) fun _ => Port.Inv.wholeFrame bytes
  | frameDiscardedWaiting =>
    apply s.whileUp_changes
    intro _
    split
    · exact .refl s
    · exact s.port_changes _ (own .port rfl) fun _ => by simp [Port.Inv, FramePhase.active]
  | writeItem g i v =>
    change ∃ t, execWriteItem g i v s = .next t ∧ _
    unfold execWriteItem
    split
    · exact s.whileUp_changes _ fun _ => s.port_changes _ (own .port rfl) fun _ => Port.Inv.wholeFrame _
    · exact s.serve_changes _ own hI
  | _ => exact s.serve_changes _ own hI

end

/-- Every command completes, by changes that reach what the commands of its event reach. -/
theorem exec_changes (I : Prop) (c : Instr) (s : State) (hI : I → s.TrackerInv) :
    ∃ t, exec c s = .next t ∧ s.Changes I (s.reach c) t :=
  exec_changes_of c s (fun x hx _ he => .inr ⟨x, hx, he⟩) (fun hp _ => .inl hp) hI

/-- The state that a command leaves follows by its changes. -/
theorem changes_of_exec {I : Prop} {c : Instr} {s t : State} (hI : I → s.TrackerInv) (h : exec c s = .next t) :
    s.Changes I (s.reach c) t := by
  obtain ⟨u, hu, changes⟩ := exec_changes I c s hI
  obtain rfl : u = t := Host.Outcome.next.inj (hu.symm.trans h)
  exact changes

/-- One step of the block is a chain of changes from the state with the command taken from its queue. -/
theorem changes_of_step {I : Prop} {s t : State} (hI : I → s.TrackerInv) (h : step s = .next t) :
    ∃ rest K, State.Changes I K { s with pending := rest } t := by
  cases hq : s.pending with
  | nil =>
    rw [step_nil s hq] at h
    obtain rfl := Host.Outcome.next.inj h
    exact ⟨s.pending, fun _ => False, .refl s⟩
  | cons c rest =>
    rw [step_cons s c rest hq] at h
    exact ⟨rest, _, changes_of_exec (s := { s with pending := rest }) hI h⟩

end Sys2Proof.Machine
end

section
/-! SUPPORT. The invariants and the frames of the block, read off the chain of changes that each command makes. -/
namespace Sys2Proof.Machine

/-! ### Invariants -/

/-- Settles O4: every change keeps the tracker list whole (`State.Changes.trackerInv`). -/
theorem trackerInvariantKept : Obligations.TrackerInvariantKept := by
  unfold Obligations.TrackerInvariantKept
  intro s t hs h
  obtain ⟨rest, K, changes⟩ := changes_of_step (I := True) (fun _ => hs) h
  exact changes.trackerInv hs

/-- Settles O5: every change keeps trace capture whole, since the entries handed over make records of at most six
units. -/
theorem captureInvariantKept : Obligations.CaptureInvariantKept := by
  unfold Obligations.CaptureInvariantKept
  intro s t hs hc h
  obtain ⟨rest, K, changes⟩ := changes_of_step (I := True) (fun _ => hs) h
  exact changes.captureInv trivial hc

/-- Settles O6: every change of the sequencer keeps its bounds. -/
theorem sequencerInvariantKept : Obligations.SequencerInvariantKept := by
  unfold Obligations.SequencerInvariantKept
  intro s t hs h
  obtain ⟨rest, K, changes⟩ := changes_of_step (I := False) False.elim h
  exact changes.sequencerInv hs

/-- Settles O7: every change keeps the channel state tied to MRST, the bounds of settings and counters, and the
port's frame in order. -/
theorem channelAndSettingsInvariantsKept : Obligations.ChannelAndSettingsInvariantsKept := by
  unfold Obligations.ChannelAndSettingsInvariantsKept
  refine ⟨fun s t hs h => ?_, fun s t hs h => ?_, fun s t hs h => ?_⟩ <;>
    obtain ⟨rest, K, changes⟩ := changes_of_step (I := False) False.elim h
  · exact changes.channelInv hs
  · exact changes.settingsInv hs
  · exact changes.portInv hs

/-! ### Frames -/

/-- Power-on reset is named wherever its two commands are. -/
theorem powersOn_named {named : Instr → Bool} (ha : named .powerOnResetAssert = true)
    (hr : ∀ x, named (.powerOnResetRelease x) = true) : ∀ c, Instr.powersOn c = true → named c = true := by
  intro c hc
  cases c with
  | powerOnResetAssert => exact ha
  | powerOnResetRelease x => exact hr x
  | _ => cases hc

/-- Settles O8: what is programmed changes by programming alone (`State.Changes.sameProgram`). -/
theorem onlyProgrammingCommandsProgram : Obligations.OnlyProgrammingCommandsProgram := by
  unfold Obligations.OnlyProgrammingCommandsProgram
  intro c s h
  obtain ⟨t, ht, changes⟩ := exec_changes False c s False.elim
  exact ⟨t, ht, changes.sameProgram (h.not_reach (e := .program) (powersOn_named rfl fun _ => rfl))⟩

/-- Settles O10: each block's frame along the chain, for a command that spares it. -/
theorem onlyTheirCommandsReachTheBlocks : Obligations.OnlyTheirCommandsReachTheBlocks := by
  unfold Obligations.OnlyTheirCommandsReachTheBlocks
  have changes {c : Instr} {s t : State} (h : exec c s = .next t) : s.Changes False (s.reach c) t :=
    changes_of_exec False.elim h
  refine ⟨fun c s t hs h => ?_, fun c s t hs h => ?_, fun c s t h => ⟨fun hs => ?_, fun hs => ?_, fun hs => ?_⟩,
    fun c s t h => ⟨fun hs => ?_, fun hs => ?_⟩,
    fun c s t h => ⟨fun hs => ?_, fun hs => ?_, fun hs => ?_, fun hs => ?_⟩⟩
  · exact (changes h).sameShadow (hs.not_reach (e := .shadow) (powersOn_named rfl fun _ => rfl))
  · exact (changes h).sameTracker (hs.not_reach (e := .tracker) (powersOn_named rfl fun _ => rfl))
  · exact (changes h).checker (hs.not_reach (e := .checker) (powersOn_named rfl fun _ => rfl))
  · exact (changes h).windows (hs.not_reach (e := .windows) (powersOn_named rfl fun _ => rfl))
  · exact (changes h).fwd (hs.not_reach (e := .forwarding) (powersOn_named rfl fun _ => rfl))
  · exact (changes h).store (hs.not_reach (e := .store) (powersOn_named rfl fun _ => rfl))
  · exact (changes h).port (hs.not_reach (e := .port) (powersOn_named rfl fun _ => rfl))
  · exact (changes h).seq (hs.not_reach (e := .sequencer) (powersOn_named rfl fun _ => rfl))
  · exact (changes h).capture (hs.not_reach (e := .capture) (powersOn_named rfl fun _ => rfl))
  · exact (changes h).alert (hs.not_reach (e := .alert) (powersOn_named rfl fun _ => rfl))
  · exact (changes h).cues (hs.not_reach (e := .cues) (powersOn_named rfl fun _ => rfl))

/-! ### Time -/

theorem Instr.powersOn_eq_false {c : Instr} (ha : c ≠ .powerOnResetAssert) (hr : ∀ x, c ≠ .powerOnResetRelease x) :
    Instr.powersOn c = false := by
  cases c with
  | powerOnResetAssert => exact absurd rfl ha
  | powerOnResetRelease x => exact absurd rfl (hr x)
  | _ => rfl

theorem Effect.named_wires {c : Instr} (h : c ≠ .slotAdvance) : Effect.wires.named c = false := by
  cases c with
  | slotAdvance => exact absurd rfl h
  | _ => rfl

/-- A command that is none of PORST_N's does not reach PORST_N. -/
theorem State.not_reach_power {s : State} {c : Instr} (h : Instr.powersOn c = false) : ¬ s.reach c .power := by
  rintro (hc | ⟨x, -, hx⟩)
  · exact Bool.false_ne_true (h.symm.trans hc)
  · exact Bool.false_ne_true hx

/-- A command that ends no slot reaches what it names itself. -/
theorem State.not_reach {s : State} {c : Instr} {e : Effect} (hc : c ≠ .slotAdvance)
    (hp : Instr.powersOn c = false) (h : e.named c = false) : ¬ s.reach c e := by
  rintro (hc' | ⟨x, hx, hn⟩)
  · exact Bool.false_ne_true (hp.symm.trans hc')
  · rw [State.performs, if_neg hc, List.mem_singleton] at hx
    exact Bool.false_ne_true (h.symm.trans (hx ▸ hn))

theorem State.request_wires (s : State) (c : Instr) : (s.request c).wires = s.wires := by
  unfold State.request
  split
  · rfl
  · next h =>
    obtain ⟨-, -, -, hwires, -⟩ := State.requestEffect_request h
    exact hwires

theorem State.serveWaiting_wires (s : State) : s.serveWaiting.wires = s.wires := by
  unfold State.serveWaiting
  split
  · rfl
  · exact s.request_wires _

theorem State.owedEvents_wires (s : State) : s.owedEvents.wires = s.wires :=
  (s.owedEvents_changes (I := False) (K := fun e => e.owed = true) (fun _ h => h) False.elim).wires
    Bool.false_ne_true

theorem State.takeEdges_wires (s : State) : s.takeEdges.wires = s.wires :=
  (s.takeEdges_changes (I := False) (K := fun e => e.owed = true) ⟨rfl, rfl, rfl⟩ rfl).wires Bool.false_ne_true

theorem exec_slotAdvance (s : State) :
    exec .slotAdvance s = .next (if s.porst then { s with wires := s.wires.tail } else s.closeSlot.openSlot) := rfl

theorem State.openSlot_wires (s : State) : s.openSlot.wires = s.wires := rfl

/-- The end of a slot uses up one list of what the port's pins did (log entry 12). -/
theorem State.closeSlot_wires (s : State) : s.closeSlot.wires = s.wires.tail := by
  have before : s.lastEvents.takeEdges.wires = s.wires :=
    (State.takeEdges_wires _).trans ((State.serveWaiting_wires _).trans s.owedEvents_wires)
  rw [State.closeSlot, State.takeWires_wires, before]

theorem execSlotAdvance_wires {s t : State} (h : exec .slotAdvance s = .next t) : t.wires = s.wires.tail := by
  rw [exec_slotAdvance] at h
  rw [← Host.Outcome.next.inj h]
  split
  · rfl
  · rw [State.openSlot_wires, State.closeSlot_wires]

theorem State.assertReset_wires (s : State) : s.assertReset.wires = s.wires :=
  (s.assertReset_changes (I := False) (K := fun e => e.named .memoryResetAssertion = true)
    ⟨⟨rfl, rfl, rfl⟩, rfl, rfl, rfl⟩ rfl rfl rfl False.elim).wires Bool.false_ne_true

/-- The release of PORST_N uses up one list too. -/
theorem execPowerOnResetRelease_wires {s t : State} {x : Sampled} (h : exec (.powerOnResetRelease x) s = .next t) :
    t.wires = if s.porst then s.wires.tail else s.wires := by
  obtain rfl := Host.Outcome.next.inj h
  by_cases hp : s.porst = true
  · simp only [hp, if_true]
    split
    · exact State.assertReset_wires _
    · rfl
  · simp only [hp, Bool.false_eq_true, if_false]

/-- Settles O9: the clock, PORST_N and the queue by the chain of changes; the wires exactly, for the three commands
that use them up. -/
theorem onlyClockCommandsMoveTime : Obligations.OnlyClockCommandsMoveTime := by
  unfold Obligations.OnlyClockCommandsMoveTime
  intro c s t h
  have changes : s.Changes False (s.reach c) t := changes_of_exec False.elim h
  refine ⟨changes.pending, ?ends, ?asserts, ?releases, ?others, ?clock, ?power⟩
  case ends =>
    rintro rfl
    exact execSlotAdvance_wires h
  case asserts =>
    rintro rfl
    obtain rfl := Host.Outcome.next.inj h
    split <;> rfl
  case releases =>
    rintro x rfl
    exact execPowerOnResetRelease_wires h
  case others =>
    intro hs ha hr
    exact changes.wires (State.not_reach hs (Instr.powersOn_eq_false ha hr) (Effect.named_wires hs))
  case clock =>
    intro hc
    have ends : c ≠ .slotAdvance := by
      rintro rfl
      cases hc
    have power : Instr.powersOn c = false := by
      cases c <;> first
        | rfl
        | cases hc
    exact changes.now (State.not_reach ends power hc)
  case power =>
    intro ha hr
    exact changes.porst (State.not_reach_power (Instr.powersOn_eq_false ha hr))

/-! ### Findings -/

theorem Effect.named_acknowledge {c : Instr} (h : Effect.acknowledge.named c = true) : ∃ x, c = .ack x := by
  cases c with
  | ack x => exact ⟨x, rfl⟩
  | _ => cases h

theorem Effect.named_softReset {c : Instr} (h : Effect.softReset.named c = true) : c = .softReset := by
  cases c with
  | softReset => rfl
  | _ => cases h

theorem Effect.named_clearViolations {c : Instr} (h : Effect.clearViolations.named c = true) :
    c = .clearViolations := by
  cases c with
  | clearViolations => rfl
  | _ => cases h

theorem Effect.named_clearCounts {c : Instr} (h : Effect.clearCounts.named c = true) : c = .clearCounts := by
  cases c with
  | clearCounts => rfl
  | _ => cases h

/-- Settles O12: latches, the first violation and the counts along the chain; a release of PORST_N is none while
PORST_N is released. -/
theorem findingsStayUntilCleared : Obligations.FindingsStayUntilCleared := by
  unfold Obligations.FindingsStayUntilCleared
  intro c s t hp hc hs h
  by_cases hr : ∃ x, c = .powerOnResetRelease x
  · obtain ⟨x, rfl⟩ := hr
    obtain rfl : s = t := by
      obtain rfl := Host.Outcome.next.inj h
      simp [hp]
    exact ⟨fun _ _ => BitVec.and_self, fun _ hf _ _ => hf, fun _ _ _ => Nat.le_refl _, fun _ _ _ => Nat.le_refl _⟩
  · have changes : s.Changes False (s.reach c) t := changes_of_exec False.elim h
    have power : Instr.powersOn c = false := Instr.powersOn_eq_false hc fun x hx => hr ⟨x, hx⟩
    have spared {e : Effect} (hn : ∀ x ∈ s.performs c, e.named x ≠ true) : ¬ s.reach c e := by
      rintro (hc' | ⟨x, hx, hx'⟩)
      · exact Bool.false_ne_true (power.symm.trans hc')
      · exact hn x hx hx'
    have ack (h : ∀ x, .ack x ∉ s.performs c) : ¬ s.reach c .acknowledge := spared fun x hx hn => by
      obtain ⟨y, rfl⟩ := Effect.named_acknowledge hn
      exact h y hx
    have soft (h : .softReset ∉ s.performs c) : ¬ s.reach c .softReset :=
      spared fun x hx hn => h (Effect.named_softReset hn ▸ hx)
    have violations (h : .clearViolations ∉ s.performs c) : ¬ s.reach c .clearViolations :=
      spared fun x hx hn => h (Effect.named_clearViolations hn ▸ hx)
    have counts (h : .clearCounts ∉ s.performs c) : ¬ s.reach c .clearCounts :=
      spared fun x hx hn => h (Effect.named_clearCounts hn ▸ hx)
    obtain ⟨hchecker, hwindows, -⟩ := hs
    exact ⟨fun ha hr => changes.latches (ack ha) (soft hr), fun f hf hv hr => changes.first (violations hv) (soft hr) hf,
      fun hc hr n => changes.counts (counts hc) (soft hr) hchecker n,
      fun hc k hk => changes.hitCount (counts hc) (State.not_reach_power power) hwindows k (hk.imp_left soft)⟩

end Sys2Proof.Machine
end

section
/-! SUPPORT. The machine as a whole, its reset state, and the requests of one block. -/
namespace Sys2Proof.Machine

/-! ### The queue of commands and the reset state -/

/-- Settles O1: one step of the queue, by whether a command waits in it. -/
theorem frontOfQueueRuns : Obligations.FrontOfQueueRuns := by
  unfold Obligations.FrontOfQueueRuns
  intro c rest s
  exact ⟨step_cons _ c rest rfl, step_nil _ rfl⟩

/-- Settles O2: the reset state is written out with the default of each block. -/
theorem resetHoldsTheSpecsValues : Obligations.ResetHoldsTheSpecsValues := by
  unfold Obligations.ResetHoldsTheSpecsValues
  intro s
  have banks (k : Fin 16) : s.banks[k] = Bank.blank .unknown := Vector.getElem_replicate _
  have windows (k : Fin 16) : s.windows[k] = Window.default := Vector.getElem_replicate _
  have stages (k : Fin 8) : s.seq.stages[k] = Stage.default := Vector.getElem_replicate _
  have rules (n : Fin 22) : s.checker.rules[n] = Rule.default n.val := Vector.getElem_ofFn _
  have counts (n : Fin 22) : s.checker.counts[n] = 0 := Vector.getElem_replicate _
  have cues (p : Fin 4) : s.cues[p] = Cue.default false := by revert p; decide
  have level (p : Fin 4) : s.pinLevel (BitVec.ofFin p) = false := by revert p; decide
  have values : s.checker.rules.toList.map (fun r => (r.value.toNat, r.value2.toNat)) =
      [(4, 0), (2, 0), (10, 0), (4, 0), (2, 0), (4, 0), (3, 0), (1, 0), (40, 0), (4, 0), (20, 0), (4, 32)]
        ++ List.replicate 10 (0, 0) := by decide
  refine ⟨rfl, rfl, rfl, banks, rfl, rfl, rfl, rfl, rfl, fun n => ⟨?_, counts n⟩, values, rfl, rfl, rfl, rfl,
    fun k => ?_, rfl, rfl, rfl, rfl, rfl, rfl, fun k => ?_, rfl, rfl, rfl, rfl, rfl, rfl, rfl, fun q => ?_, rfl,
    rfl, rfl, rfl, rfl, rfl, rfl, rfl, rfl, rfl, rfl, by decide, fun p => ?_, rfl, rfl, rfl, rfl, rfl, rfl⟩
  · rw [rules n]; rfl
  · rw [windows k]; decide
  · rw [stages k]; decide
  · cases q <;> rfl
  · rw [cues p, level p]; decide

/-- Settles O3: each block's part of the invariant holds of its default. -/
theorem invariantHoldsAtReset : Obligations.InvariantHoldsAtReset := by
  unfold Obligations.InvariantHoldsAtReset
  have banks (b : BankNo) : (State.reset.bank b).row = none := by
    have h : State.reset.bank b = Bank.blank .unknown := Vector.getElem_replicate _
    rw [h]; rfl
  have windows (k : Fin 16) : State.reset.windows[k].Inv := by
    have h : State.reset.windows[k] = Window.default := Vector.getElem_replicate _
    rw [h]; exact Window.default_inv
  have cues (p : Fin 4) : State.reset.cues[p].Inv := by
    have h : State.reset.cues[p] = Cue.default ((0 : BitVec 4).getLsbD p.val) := Vector.getElem_ofFn _
    rw [h]; exact Cue.default_inv _
  refine ⟨?_, Capture.default_inv none, ?_, ?_, ⟨Checker.default_inv, windows, ?_, ?_, cues⟩, Port.released_inv false⟩
  · decide
  · exact ⟨by decide, fun _ => ⟨rfl, rfl, rfl, rfl, rfl⟩, nofun, nofun, nofun, Sequencer.default_stages_legal⟩
  · exact ⟨by decide, nofun⟩
  · decide
  · exact ⟨nofun, nofun⟩

/-! ### Offers of event records alone -/

/-- An offer reaches the queue it is for. -/
theorem State.offer_capture (s : State) (q : QueueId) (r : Record) :
    (s.offer q r).capture = s.capture.setQueue q ((s.offer q r).capture.queue q) := by
  have same (c : Capture) : c = c.setQueue q (c.queue q) := by cases q <;> rfl
  have set (c : Capture) (x : Staging) : c.setQueue q x = c.setQueue q ((c.setQueue q x).queue q) := by
    rw [Capture.queue_setQueue_same]
  unfold State.offer
  simp only
  split
  · exact same _
  · split
    · exact set _ _
    · rw [State.setLatchIf_capture]
      exact set _ _

/-- An event record reaches event staging alone. -/
theorem State.offerEvent_capture (s : State) (r : Record) :
    (s.offerEvent r).capture = { s.capture with event := (s.offerEvent r).capture.event } := by
  unfold State.offerEvent
  split
  · exact s.offer_capture .event r
  · rfl

/-- One event record offered by itself is queued in the sense of the statements. -/
theorem State.offerEvent_recordsQueued (s : State) (r : Record) : s.RecordsQueued (s.offerEvent r) [[r]] :=
  (s.handOut_handedOut { occurrences := [], records := [r] } Merges.nil (.single [r])).2

/-- `RecordsQueued` reads of the state before trace capture alone, and of the state after event staging and the
latches. -/
theorem State.RecordsQueued.congr {s s' t t' : State} {rs : List (List Record)} (h : s'.RecordsQueued t' rs)
    (hs : s'.capture = s.capture) (he : t.capture.event = t'.capture.event)
    (hl : t.alert.latches = t'.alert.latches) : s.RecordsQueued t rs := by
  unfold State.RecordsQueued at h ⊢
  rw [he, hl, ← hs]
  exact h

/-! ### ARM and DISARM -/

/-- A slot value and a value of any width, as the sum at the width of a slot value. -/
theorem slotPlus_toNat {w : Nat} (a : Slot) (x : BitVec w) : slotPlus a x.toNat = a + x.setWidth 48 := by
  rw [slotPlus, BitVec.ofNat_toNat]

theorem State.armSequencer_held (s : State) (h : s.turns.softReset = true) : s.armSequencer = s := if_pos h

/-- The state in which ARM offers its STAGE record. -/
def State.armed (s : State) : State := (s.setSeq { s.seq with queue := [] }).enterStage 0

theorem State.armSequencer_eq (s : State) (h : s.turns.softReset = false) :
    s.armSequencer = s.armed.offerEvent (.stage s.seq.stage 0 .arm s.now) := by
  unfold State.armSequencer
  rw [h]
  rfl

/-- Settles O42: ARM after a soft reset leaves the state; otherwise stage 0 is entered and the record is offered to
the capture that stands; DISARM is its effect written out. -/
theorem armAndDisarmAct : Obligations.ArmAndDisarmAct := by
  unfold Obligations.ArmAndDisarmAct
  intro s
  refine ⟨fun hs => ⟨fun hr => ?_, fun hr => ?_⟩, fun hs => exec_request rfl hs⟩
  · rw [exec_request rfl hs, s.armSequencer_held hr]
    rfl
  · refine ⟨_, exec_request rfl hs, ?_⟩
    rw [s.armSequencer_eq hr]
    have step := s.armed.offerEvent_step (.stage s.seq.stage 0 .arm s.now)
    have queued := s.armed.offerEvent_recordsQueued (.stage s.seq.stage 0 .arm s.now)
    have staged := s.armed.offerEvent_capture (.stage s.seq.stage 0 .arm s.now)
    generalize s.armed.offerEvent (.stage s.seq.stage 0 .arm s.now) = t at step queued staged
    obtain ⟨same, -, -, -⟩ := step
    refine ⟨?_, ?_, queued.congr rfl rfl rfl, ?_, ?_, ?_, ?_, ?_, ?_, ?_⟩
    · change t.seq = _
      rw [same, ← slotPlus_toNat]; rfl
    · change t.turns = _
      rw [same]; rfl
    · change t.capture.state = _
      rw [staged]; rfl
    · change t.capture.access = _
      rw [staged]; rfl
    · change t.capture.marker = _
      rw [staged]; rfl
    · change t.cues = _
      rw [same]; rfl
    · change t.chan = _ ∧ t.banks = _ ∧ t.modes = _
      rw [same]; exact ⟨rfl, rfl, rfl⟩
    · change t.tracker = _ ∧ t.waiting = _ ∧ t.nextNumber = _
      rw [same]; exact ⟨rfl, rfl, rfl⟩
    · change t.port.settle _ = _
      rw [same]; rfl

/-! ### Time, locks, counts and pins -/

/-- Settles O52: the effect of TIME CLEAR written out, bank by bank and entry by entry. -/
theorem timeClearMovesTime : Obligations.TimeClearMovesTime := by
  unfold Obligations.TimeClearMovesTime
  intro s hs
  rw [exec_request rfl hs]
  rfl

theorem State.lockWindow_range (s : State) (n : Byte) (h : 16 ≤ n.toNat) :
    s.lockWindow n = (s, Answer.refuse .range) := dif_neg (Nat.not_lt.mpr h)

theorem State.lockWindow_eq (s : State) (n : Byte) (h : n.toNat < 16) :
    s.lockWindow n =
      ({ s with windows := s.windows.set n.toNat { s.windows[n.toNat] with locked := true } }, Answer.ok) := dif_pos h

/-- SET PINS pin by pin: the latch of each pin named takes the value given for it (R177). -/
theorem State.setPins_eq (s : State) (v : Byte) :
    s.setPins v =
      { s with
        cues := Vector.ofFn fun p =>
          { s.cues[p] with latch := if v.getLsbD (4 + p.val) then v.getLsbD p.val else s.cues[p].latch } } := by
  unfold State.setPins
  congr 2
  funext k
  split <;> rfl

/-- Settles O54: each effect as it stands, LOCK WINDOW by whether its index names a window. -/
theorem lockClearsAndPinsAct : Obligations.LockClearsAndPinsAct := by
  unfold Obligations.LockClearsAndPinsAct
  refine ⟨fun s => ⟨fun n h hs => ?_, fun n h hs => ?_, fun hs => exec_request rfl hs,
    fun hs => exec_request rfl hs⟩, fun s v hs => ?_⟩
  · exact exec_request (congrArg some (s.lockWindow_eq n h)) hs
  · exact exec_request (congrArg some (s.lockWindow_range n h)) hs
  · exact exec_request (congrArg (fun t => some (t, Answer.ok)) (s.setPins_eq v)) hs

end Sys2Proof.Machine
end

section
/-! SUPPORT. The cue pins and the end of a slot: pulses, edges, and what passes to the next slot. -/
namespace Sys2Proof.Machine

/-- A command that reaches the part while PORST_N is released is its operation. -/
theorem exec_up {c : Instr} {s : State} {f : State → State} (h : exec c s = s.whileUp f) (hp : s.porst = false) :
    exec c s = .next (f s) :=
  h.trans (s.whileUp_up f hp)

/-! ### Offers leave the rest as it is -/

/-- Occurrences reach the queue of the sequencer alone. -/
theorem State.offerOccurrence_seq (s : State) (o : Occurrence) :
    (s.offerOccurrence o).seq = { s.seq with queue := (s.offerOccurrence o).seq.queue } := by
  unfold State.offerOccurrence
  split
  · split <;> rfl
  · rfl

theorem State.offerOccurrences_queue (s : State) (os : List Occurrence) :
    (s.offerOccurrences os).seq = { s.seq with queue := (s.offerOccurrences os).seq.queue } := by
  induction os generalizing s with
  | nil => rfl
  | cons o os ih =>
    rw [State.offerOccurrences_cons, ih, State.offerOccurrence_seq]

theorem State.handOut_seq (s : State) (o : Offers) :
    (s.handOut o).seq = { s.seq with queue := (s.handOut o).seq.queue } := by
  unfold State.handOut
  rw [State.offerEvents_seq]
  exact s.offerOccurrences_queue _

theorem State.handOut_tracker (s : State) (o : Offers) : (s.handOut o).tracker = s.tracker := by
  rw [s.handOut_offerStep o]

theorem State.handOut_cues (s : State) (o : Offers) : (s.handOut o).cues = s.cues := by
  rw [s.handOut_offerStep o]

theorem State.closeAccount_tracker (s : State) (e : Entry) : (s.closeAccount e).1.tracker = s.tracker := by
  rw [(s.closeAccount_step e).1]

theorem State.closeAccount_seq (s : State) (e : Entry) : (s.closeAccount e).1.seq = s.seq := by
  rw [(s.closeAccount_step e).1]

/-! ### Forwarding a slot owes, with nothing in the list -/

theorem State.closeWaiting_tracker (s : State) (number : Nat) : (s.closeWaiting number).tracker = s.tracker := by
  unfold State.closeWaiting
  split
  · rfl
  · split
    · rfl
    · rw [State.handOut_tracker, State.closeAccount_tracker]

theorem State.closeWaiting_seqState (s : State) (number : Nat) :
    (s.closeWaiting number).seq.state = s.seq.state := by
  unfold State.closeWaiting
  split
  · rfl
  · split
    · rfl
    · rw [State.handOut_seq, State.closeAccount_seq]

theorem State.forwardWrite_noEntries (s : State) (h : s.tracker = []) : s.forwardWrite.tracker = [] := by
  unfold State.forwardWrite
  split
  · exact h
  · simp only
    split
    · exact h
    · rw [State.closeWaiting_tracker]
      simp [h]

theorem State.forwardWrite_seqState (s : State) : s.forwardWrite.seq.state = s.seq.state := by
  unfold State.forwardWrite
  split
  · rfl
  · simp only
    split
    · rfl
    · rw [State.closeWaiting_seqState]

theorem State.forwardCommand_fwd (s : State) : s.forwardCommand = { s with fwd := s.forwardCommand.fwd } := by
  unfold State.forwardCommand
  split <;> rfl

theorem State.forwardRead_fwd (s : State) : s.forwardRead = { s with fwd := s.forwardRead.fwd } := by
  unfold State.forwardRead
  split <;> rfl

theorem State.forwarded_noEntries (s : State) (h : s.tracker = []) : s.forwarded.tracker = [] := by
  unfold State.forwarded
  rw [State.forwardRead_fwd]
  refine State.forwardWrite_noEntries _ ?_
  rw [State.forwardCommand_fwd]
  exact h

theorem State.forwarded_seqState (s : State) : s.forwarded.seq.state = s.seq.state := by
  unfold State.forwarded
  rw [State.forwardRead_fwd]
  refine (State.forwardWrite_seqState _).trans ?_
  rw [State.forwardCommand_fwd]

/-- Forwarding does not reach the pins of the cues. -/
theorem State.forwarded_cues (s : State) : s.forwarded.cues = s.cues :=
  (s.forwarded_changes (I := False) (K := (· ≠ .cues)) ⟨nofun, nofun, nofun⟩ nofun nofun).cues fun h => h rfl

/-! ### With an empty list the tracker's events change nothing -/

theorem State.allEffects_noEntries (s : State) (h : s.tracker = []) : s.allEffects = s := by
  simp [State.allEffects, State.numbers, h]

theorem State.allData_noEntries (s : State) (h : s.tracker = []) : s.allData = s := by
  simp [State.allData, State.numbers, h]

theorem State.allDone_noEntries (s : State) (h : s.tracker = []) : s.allDone = s := by
  simp [State.allDone, State.numbers, h]

theorem State.resolveVoid_noEntries (s : State) (kind : AccessKind) (h : s.tracker = []) :
    s.resolveVoid kind = s := by
  simp [State.resolveVoid, State.openHolder, State.holder, State.streamer, h]

theorem State.settleHolder_noEntries (s : State) (h : s.tracker = []) : s.settleHolder = s := by
  rw [State.settleHolder, s.resolveVoid_noEntries .read h, s.allData_noEntries h]

theorem State.trackerOwed_noEntries (s : State) (h : s.tracker = []) : s.trackerOwed = s := by
  rw [State.trackerOwed, s.allEffects_noEntries h, s.settleHolder_noEntries h, s.resolveVoid_noEntries .write h,
    s.allDone_noEntries h]

/-! ### The sequencer and trace capture at a slot's end -/

theorem State.offer_seq (s : State) (q : QueueId) (r : Record) : (s.offer q r).seq = s.seq := by
  rw [(s.offer_step q r).1]

theorem State.intervalTurn_seqState (s : State) : s.intervalTurn.seq.state = s.seq.state := by
  unfold State.intervalTurn
  split
  · rfl
  · simp only
    split
    · split
      · rw [State.offer_seq, State.offerOccurrence_seq]
      · rw [State.offerOccurrence_seq]
    · rfl

theorem State.takeTurn_idle (s : State) (h : s.seq.state ≠ .armed) : s.takeTurn = s := if_neg fun k => h k.1

theorem State.timeout_idle (s : State) (h : s.seq.state ≠ .armed) : s.timeout = s := if_neg fun k => h k.1

theorem State.sequencerOwed_idle (s : State) (h : s.seq.state ≠ .armed) : s.sequencerOwed = s.intervalTurn := by
  have idle : s.intervalTurn.seq.state ≠ .armed := by rwa [s.intervalTurn_seqState]
  rw [State.sequencerOwed, State.takeTurn_idle _ idle, State.timeout_idle _ idle]

theorem State.recording_cues (s : State) : s.intervalTurn.unitTurn.pickTurn.cues = s.cues :=
  (((s.intervalTurn_changes (I := False) (K := (· ≠ .cues)) ⟨nofun, nofun, nofun⟩).trans
    (State.unitTurn_changes _ nofun nofun)).trans (State.pickTurn_changes _ nofun nofun nofun)).cues fun h => h rfl

/-! ### Samples and pulses (R174, R175) -/

theorem State.samplePin_new (s : State) (p : PinNo) (l : Bool) (h : s.turns.pins.getLsbD p.toNat = false) :
    s.samplePin p l =
      { s.setCue p { s.cue p with board := l } with
        turns := { s.turns with pins := s.turns.pins ||| BitVec.twoPow 4 p.toNat } } :=
  if_neg (by simp [h])

theorem State.endPulse_due (s : State) (p : PinNo) (ha : (s.cue p).active = true) (hr : (s.cue p).remaining = 0) :
    s.endPulse p = s.setCue p { s.cue p with active := false } :=
  if_pos (by simp [Cue.endDue, ha, hr])

/-- The pin after the end of its pulse, if the end is due. -/
def Cue.ended (c : Cue) : Cue := if c.endDue then { c with active := false } else c

theorem State.endPulse_cue (s : State) (q p : PinNo) :
    (s.endPulse q).cue p = if p = q then (s.cue p).ended else s.cue p := by
  unfold State.endPulse Cue.ended
  by_cases h : p = q
  · subst h
    split <;> simp
  · split
    · simp [State.cue_setCue_other, h]
    · rfl

theorem Cue.ended_ended (c : Cue) : c.ended.ended = c.ended := by
  unfold Cue.ended
  split <;> simp_all [Cue.endDue]

theorem State.endPulses_cue (l : List PinNo) (s : State) (p : PinNo) :
    (l.foldl State.endPulse s).cue p = if p ∈ l then (s.cue p).ended else s.cue p := by
  induction l generalizing s with
  | nil => simp
  | cons q l ih =>
    rw [List.foldl_cons, ih, State.endPulse_cue]
    by_cases hq : p = q <;> by_cases hl : p ∈ l <;> simp [hq, hl, Cue.ended_ended]

theorem mem_allPins (p : PinNo) : p ∈ allPins := by
  revert p
  decide

theorem State.cue_of_cues {s t : State} (h : t.cues = s.cues) (p : PinNo) : t.cue p = s.cue p := by
  simp [State.cue, h]

/-- With no entry in the list and the sequencer out of ARMED, a slot's owed events end pulses and reach the pins no
further. -/
theorem State.owedEvents_cue (s : State) (ht : s.tracker = []) (hs : s.seq.state ≠ .armed) (p : PinNo) :
    s.owedEvents.cue p = (s.cue p).ended := by
  have noEntries : s.forwarded.allCompletions.tracker = [] := s.forwarded_noEntries ht
  have idle : s.forwarded.allCompletions.seq.state ≠ .armed := s.forwarded_seqState ▸ hs
  rw [s.owedEvents_eq, State.owedRest, State.endPulses_cue, if_pos (mem_allPins p),
    State.trackerOwed_noEntries _ noEntries, State.sequencerOwed_idle _ idle,
    State.cue_of_cues (State.recording_cues s.forwarded.allCompletions)]
  exact congrArg Cue.ended (State.cue_of_cues s.forwarded_cues p)

/-! ### Edges (R176) -/

theorem State.joinEdges_offerStep (s : State) (l : List PinNo) (p : State × Offers) :
    p.1.OfferStep (s.joinEdges l p).1 := by
  induction l generalizing p with
  | nil => exact .refl _
  | cons pin l ih => exact (p.1.join_offerStep _ _).trans (ih _)

/-- Beside the last levels the comparison of the pins reaches what an offer reaches. -/
theorem State.takeEdges_offerStep (s : State) : s.settleLevels.OfferStep s.takeEdges := by
  cases hf : s.turns.firstSlot with
  | true => rw [s.takeEdges_first hf]; exact .refl _
  | false =>
    rw [s.takeEdges_later hf]
    exact (s.joinEdges_offerStep allPins (s.settleLevels, Offers.none)).trans (State.handOut_offerStep _ _)

theorem State.settleLevels_cue (s : State) (p : PinNo) :
    s.settleLevels.cue p = { s.cue p with lastLevel := s.pinLevel p } := by
  simp [State.cue, State.settleLevels, State.pinLevel]

theorem State.takeEdges_cue (s : State) (p : PinNo) :
    s.takeEdges.cue p = { s.cue p with lastLevel := s.pinLevel p } := by
  have h : s.takeEdges.cues = s.settleLevels.cues := by rw [s.takeEdges_offerStep]
  rw [State.cue_of_cues h, s.settleLevels_cue]

theorem State.openSlot_cue (s : State) (p : PinNo) : s.openSlot.cue p = (s.cue p).tick := by
  simp [State.cue, State.openSlot]

/-- The start of the next slot, seen from the end of the slot's last events. -/
theorem State.advance_cue (u : State) (p : PinNo) :
    (u.takeEdges.takeWires.openSlot).cue p =
      { u.cue p with remaining := (u.cue p).remaining - 1, lastLevel := u.pinLevel p } := by
  rw [State.openSlot_cue]
  change (u.takeEdges.cue p).tick = _
  rw [u.takeEdges_cue]
  rfl

theorem exec_slotAdvance_up (s : State) (h : s.porst = false) :
    exec .slotAdvance s = .next s.lastEvents.takeEdges.takeWires.openSlot := by
  rw [exec_slotAdvance, h]
  rfl

theorem State.lastEvents_of_none (s : State) (h : s.port.waiting = none) : s.lastEvents = s.owedEvents :=
  State.serveWaiting_none _ (by rw [s.owedEvents_port, h])

/-- Settles O49: a sample and the end of a pulse reach their pin; over a slot's end the owed events end pulses, the
edges set last levels, and the next slot's start counts down; a level follows its function. -/
theorem cuePinsAct : Obligations.CuePinsAct := by
  unfold Obligations.CuePinsAct
  refine ⟨fun s p l hp ht => ?_, fun s p hp ha hr => ?_, fun s hp hw ht hq => ?_, fun s p => ⟨?_, fun hp => ?_⟩⟩
  · rw [exec_up (f := fun t => t.samplePin p l) rfl hp, s.samplePin_new p l ht]
  · rw [exec_up (f := fun t => t.endPulse p) rfl hp, s.endPulse_due p ha hr]
  · refine ⟨_, exec_slotAdvance_up s hp, fun p => ?_⟩
    rw [State.advance_cue, s.lastEvents_of_none hw, s.owedEvents_cue ht hq]
    unfold Cue.ended Cue.endDue
    cases ha : (s.cue p).active <;> by_cases h0 : (s.cue p).remaining = 0 <;> simp [h0, ha]
  · have asserted : s.alert.asserted = decide (∃ c : Fin 10, s.alert.potent.getLsbD c.val = true) :=
      Bool.eq_iff_iff.mpr (by rw [Alert.asserted_iff, decide_eq_true_iff])
    have level : s.pinLevel p = (s.cue p).level (decide (∃ c : Fin 10, s.alert.potent.getLsbD c.val = true)) :=
      congrArg (s.cue p).level asserted
    exact level
  · unfold State.cueDrive
    simp [hp]

end Sys2Proof.Machine
end

section
/-! SUPPORT. The end of a slot: edges, forwarding, auto-close completions, the request that waits; and the interval
test. -/
namespace Sys2Proof.Machine

/-! ### Edges (R176) -/

/-- The pin and its edge, if its level differs from its last level. -/
def State.edgePair (s : State) (p : PinNo) : Option (PinNo × Edge) :=
  if (s.cue p).lastLevel = s.pinLevel p then none
  else some (p, if s.pinLevel p then Edge.rising else Edge.falling)

theorem State.edgeOffers_none (s : State) (p : PinNo) (h : s.edgePair p = none) : s.edgeOffers p = Offers.none := by
  unfold State.edgePair at h
  unfold State.edgeOffers State.edgeOf
  cases hl : (s.cue p).lastLevel <;> cases hn : s.pinLevel p <;> simp_all

theorem State.edgeOffers_some (s : State) (p : PinNo) {x : PinNo × Edge} (h : s.edgePair p = some x) :
    s.edgeOffers p = { occurrences := [.cueEdge x.1 x.2], records := [.cue x.1 x.2 s.now] } := by
  unfold State.edgePair at h
  unfold State.edgeOffers State.edgeOf
  cases hl : (s.cue p).lastLevel <;> cases hn : s.pinLevel p <;> simp_all <;>
    subst h <;> exact ⟨rfl, rfl⟩

/-- The edges joined one by one are a merge of one occurrence and one record each. -/
theorem State.joinEdges_merges (s : State) (l : List PinNo) (p : State × Offers) {os : List (List Occurrence)}
    {rs : List (List Record)} (ho : Merges p.2.occurrences os) (hr : Merges p.2.records rs) :
    Merges (s.joinEdges l p).2.occurrences
      (os ++ (l.filterMap s.edgePair).map fun x => [.cueEdge x.1 x.2]) ∧
    Merges (s.joinEdges l p).2.records
      (rs ++ (l.filterMap s.edgePair).map fun x => [.cue x.1 x.2 s.now]) := by
  induction l generalizing p os rs with
  | nil => simpa [State.joinEdges] using ⟨ho, hr⟩
  | cons pin l ih =>
    change Merges (s.joinEdges l (p.1.join p.2 (s.edgeOffers pin))).2.occurrences _ ∧
      Merges (s.joinEdges l (p.1.join p.2 (s.edgeOffers pin))).2.records _
    cases he : s.edgePair pin with
    | none =>
      rw [s.edgeOffers_none pin he, List.filterMap_cons_none he]
      have joined := ih (p.1.join p.2 Offers.none) (ho.merged .nil _) (hr.merged .nil _)
      simpa using joined
    | some x =>
      rw [s.edgeOffers_some pin he, List.filterMap_cons_some he]
      have joined := ih (p.1.join p.2 { occurrences := [.cueEdge x.1 x.2], records := [.cue x.1 x.2 s.now] })
        (ho.merged (.single _) _) (hr.merged (.single _) _)
      simpa using joined

theorem State.takeEdges_handedOut (s : State) (h : s.turns.firstSlot = false) :
    s.HandedOut s.takeEdges ((allPins.filterMap s.edgePair).map fun x => [.cueEdge x.1 x.2])
      ((allPins.filterMap s.edgePair).map fun x => [.cue x.1 x.2 s.now]) := by
  obtain ⟨ho, hr⟩ := s.joinEdges_merges allPins (s.settleLevels, Offers.none) .nil .nil
  have same : s.settleLevels.Changes False (fun _ => False) (s.joinEdges allPins (s.settleLevels, Offers.none)).1 :=
    s.joinEdges_changes allPins (s.settleLevels, Offers.none)
  rw [s.takeEdges_later h]
  refine (State.handOut_handedOut _ _ ho hr).congr ?_ ?_ ?_ ?_ ?_ rfl rfl rfl
  · exact same.seq id
  · rw [same.capture id]; rfl
  · rw [same.capture id]; rfl
  · rw [same.capture id]; rfl
  · rw [same.alert id]; rfl

/-- The start of the next slot, after a slot's last events. -/
theorem State.advance_now (u : State) : u.takeEdges.takeWires.openSlot.now = u.now + 1 := by
  change u.takeEdges.now + 1 = u.now + 1
  rw [u.takeEdges_offerStep]
  rfl

/-- In the first slot after PORST_N no edge is taken (R176). -/
theorem State.advance_first (u : State) (h : u.turns.firstSlot = true) :
    u.takeEdges.takeWires.openSlot.capture = u.capture ∧ u.takeEdges.takeWires.openSlot.seq = u.seq ∧
    u.takeEdges.takeWires.openSlot.alert = u.alert := by
  rw [u.takeEdges_first h]
  exact ⟨rfl, rfl, rfl⟩

theorem State.advance_handedOut (u : State) (h : u.turns.firstSlot = false) :
    u.HandedOut u.takeEdges.takeWires.openSlot
      ((allPins.filterMap u.edgePair).map fun x => [.cueEdge x.1 x.2])
      ((allPins.filterMap u.edgePair).map fun x => [.cue x.1 x.2 u.now]) :=
  (u.takeEdges_handedOut h).congr rfl rfl rfl rfl rfl rfl rfl rfl

/-- Settles O50: the slot's last events, the comparison of the pins and the next slot's start, each on its part. -/
theorem edgesAreTakenAtSlotEnd : Obligations.EdgesAreTakenAtSlotEnd := by
  unfold Obligations.EdgesAreTakenAtSlotEnd
  intro s hp u edges
  have owed : s.port.waiting = none → u = s.owedEvents := s.lastEvents_of_none
  have advance : exec .slotAdvance s = .next u.takeEdges.takeWires.openSlot := exec_slotAdvance_up s hp
  clear_value u
  exact ⟨owed, _, advance, u.advance_now, u.advance_cue, u.advance_first, u.advance_handedOut⟩

/-! ### The interval test (R179) -/

theorem Term.metBy_interval (t : Term) : t.metBy .interval = true ↔ t = .interval := by
  unfold Term.metBy
  cases t <;> simp

theorem State.usable_interval (s : State) :
    s.usable .interval = true ↔
      ∃ st ∈ s.seq.stages.toList, st.termA = .interval ∨ st.join = .or ∧ st.termB = .interval := by
  rw [State.usable, List.any_eq_true]
  simp only [Stage.uses, Bool.or_eq_true, Bool.and_eq_true, beq_iff_eq, Term.metBy_interval]

/-- One occurrence offered: it joins the queue, or sets SEQ_OVERRUN, or is dropped (R127, R129). -/
theorem State.offerOccurrence_eq (s : State) (o : Occurrence) (u : Prop) [Decidable u]
    (hu : u ↔ s.seq.state = .armed ∧ s.usable o = true) :
    s.offerOccurrence o =
      { s with
        seq := { s.seq with queue := if u ∧ s.seq.queue.length < 16 then s.seq.queue ++ [o] else s.seq.queue }
        alert := { s.alert with
          latches := s.alert.latches ||| if u ∧ 16 ≤ s.seq.queue.length then BitVec.twoPow 10 7 else 0 } } := by
  by_cases used : u
  · obtain ⟨harmed, husable⟩ := hu.mp used
    rw [s.offerOccurrence_used o harmed husable]
    by_cases room : s.seq.queue.length < 16
    · simp [used, room, Nat.not_le.mpr room, State.setSeq]
    · simp [used, room, Nat.not_lt.mp room, State.setLatch, Cause.set, Cause.bit]
  · have dropped : s.seq.state ≠ .armed ∨ s.usable o = false := by
      rw [hu, not_and_or] at used
      simpa using used
    rw [s.offerOccurrence_dropped o dropped]
    simp [used]

/-- A record offered to marker staging takes its one place, or is counted as lost, or is discarded (R154, R155). -/
theorem State.offer_marker_eq (s : State) (r : Record) (m : Prop) [Decidable m]
    (hm : m ↔ s.capture.running = true) :
    s.offer .marker r =
      { s with
        capture := { s.capture with
          marker :=
            { records :=
                if m ∧ s.capture.marker.records.length < 1 then s.capture.marker.records ++ [r]
                else s.capture.marker.records
              lost :=
                if m ∧ 1 ≤ s.capture.marker.records.length then min (s.capture.marker.lost + 1) 65535
                else s.capture.marker.lost } }
        alert := { s.alert with
          latches := s.alert.latches |||
            if m ∧ 1 ≤ s.capture.marker.records.length ∧ s.capture.marker.lost = 0 then BitVec.twoPow 10 8
            else 0 } } := by
  by_cases run : m
  · have running := hm.mp run
    by_cases room : s.capture.marker.records.length < 1
    · rw [s.offer_place .marker r running room]
      simp [run, room, Nat.not_le.mpr room, State.setCapture, Capture.setQueue, Capture.queue]
    · rw [s.offer_lost .marker r running room, State.setLatchIf_eq]
      simp only [run, room, Nat.not_lt.mp room, true_and, if_true, if_false, State.setCapture, Capture.setQueue,
        Capture.queue, raiseLost, Config.lostMax, beq_iff_eq]
      rfl
  · rw [s.offer_stopped .marker r (by simpa [hm] using run)]
    simp [run]

/-- The interval test is due: a slot reached by advance whose value is a multiple of the interval (R179). -/
def State.intervalDue (s : State) : Prop := s.turns.byAdvance = true ∧ s.atInterval = true

theorem State.intervalTurn_due (s : State) (h : s.turns.interval = false) (hd : s.intervalDue) :
    s.intervalTurn =
      let t := State.offerOccurrence { s with turns := { s.turns with interval := true } } .interval
      if s.capture.settings.markers then t.offer .marker (.mark s.now) else t := by
  unfold State.intervalTurn
  rw [if_neg (by simp [h])]
  exact if_pos hd

theorem State.intervalTurn_notDue (s : State) (h : s.turns.interval = false) (hd : ¬ s.intervalDue) :
    s.intervalTurn = { s with turns := { s.turns with interval := true } } := by
  unfold State.intervalTurn
  rw [if_neg (by simp [h])]
  exact if_neg hd

/-- Settles O51: out of the interval the turn alone is used up; in it the occurrence and the record are each offered
to their block. -/
theorem intervalEventIsProduced : Obligations.IntervalEventIsProduced := by
  unfold Obligations.IntervalEventIsProduced
  intro s hp ht due used marked queue staged lost
  rw [exec_up (f := State.intervalTurn) rfl hp]
  have hdue : due = true ↔ s.intervalDue := by
    rw [Bool.and_eq_true]
    refine and_congr Iff.rfl ?_
    unfold State.atInterval IntervalSel.exponent
    cases s.interval <;> rfl
  by_cases hd : s.intervalDue
  · have isDue : due = true := hdue.mpr hd
    let turned : State := { s with turns := { s.turns with interval := true } }
    have hused : used ↔ turned.seq.state = .armed ∧ turned.usable .interval = true := by
      rw [State.usable_interval]
      exact ⟨fun h => h.2, fun h => ⟨isDue, h⟩⟩
    rw [s.intervalTurn_due ht hd, State.offerOccurrence_eq turned .interval used hused]
    by_cases hmark : s.capture.settings.markers = true
    · have hmarked : marked ↔ s.capture.running = true := by
        rw [Capture.running_iff]
        exact ⟨fun h => h.2.2, fun h => ⟨isDue, hmark, h⟩⟩
      simp only [hmark, if_true]
      exact congrArg Host.Outcome.next (State.offer_marker_eq _ _ marked hmarked)
    · have notMarked : ¬ marked := fun h => hmark h.2.1
      simp [hmark, notMarked, turned, queue, staged, lost]
  · have notUsed : ¬ used := fun h => hd (hdue.mp h.1)
    have notMarked : ¬ marked := fun h => hd (hdue.mp h.1)
    rw [s.intervalTurn_notDue ht hd]
    simp [notUsed, notMarked, queue, staged, lost]

end Sys2Proof.Machine
end

section
/-! SUPPORT. What passes at a slot's end: forwarding, the auto-close completions, and the request that waits. -/
namespace Sys2Proof.Machine

/-! ### What is driven (R9, R11) -/

theorem State.forwardCommand_held (s : State) {w : ChannelWord} (h : s.fwd.txCommand = some w) :
    s.forwardCommand =
      { s with fwd := { s.fwd with txCommand := none, pins := { s.fwd.pins with command := some w } } } := by
  simp [State.forwardCommand, h]

theorem State.forwardRead_held (s : State) {d : BeatData × BeatData} (h : s.fwd.txRead = some d) :
    s.forwardRead =
      { s with fwd := { s.fwd with txRead := none, pins := { s.fwd.pins with readBeats := some d } } } := by
  simp [State.forwardRead, h]

theorem State.maskingOn_iff (s : State) : s.maskingOn = true ↔ s.modes.word2 = some { maskOn := true } := by
  unfold State.maskingOn
  cases h : s.modes.word2 with
  | none => simp
  | some m => cases m; simp

/-- A beat as driven: its data, and its mask with the guard lanes while masking is on (R11). -/
def State.drives (s : State) (h : HeldBeat) : WriteBeat :=
  { data := h.beat.data
    mask := if s.modes.word2 = some { maskOn := true } then h.beat.mask ||| h.guard else h.beat.mask }

theorem State.driven_maskingOn (s : State) (h : HeldBeat) : h.driven s.maskingOn = s.drives h := by
  unfold HeldBeat.driven State.drives
  by_cases hm : s.maskingOn = true
  · rw [if_pos hm, if_pos (s.maskingOn_iff.mp hm)]
  · rw [if_neg hm, if_neg (mt s.maskingOn_iff.mpr hm)]

theorem State.closeWaiting_fwd (s : State) (number : Nat) : (s.closeWaiting number).fwd = s.fwd :=
  (s.closeWaiting_changes (I := False) (K := (· ≠ .forwarding)) number ⟨nofun, nofun, nofun⟩ nofun).fwd fun h => h rfl

/-- The forwarding path after the write beats that were due, if any (R11). -/
theorem State.forwardWrite_fwd (s : State) :
    s.forwardWrite.fwd =
      { s.fwd with
        txWrite := none
        pins := { s.fwd.pins with
          writeBeats := (s.fwd.txWrite.map fun h => (s.drives h.first, s.drives h.second)) <|>
            s.fwd.pins.writeBeats } } := by
  unfold State.forwardWrite
  cases ht : s.fwd.txWrite with
  | none => exact congrArg (fun w => { s.fwd with txWrite := w }) ht
  | some h =>
    cases hs : h.source with
    | none => simp [hs, s.driven_maskingOn]
    | some x => simp [hs, s.driven_maskingOn, State.closeWaiting_fwd]

theorem State.forwardCommand_pins (s : State) :
    s.forwardCommand.fwd =
      { s.fwd with
        txCommand := none
        pins := { s.fwd.pins with command := s.fwd.txCommand <|> s.fwd.pins.command } } := by
  unfold State.forwardCommand
  cases ht : s.fwd.txCommand with
  | none => exact congrArg (fun w => { s.fwd with txCommand := w }) ht
  | some w => simp

theorem State.forwardRead_pins (s : State) :
    s.forwardRead.fwd =
      { s.fwd with
        txRead := none
        pins := { s.fwd.pins with readBeats := s.fwd.txRead <|> s.fwd.pins.readBeats } } := by
  unfold State.forwardRead
  cases ht : s.fwd.txRead with
  | none => exact congrArg (fun w => { s.fwd with txRead := w }) ht
  | some w => simp

theorem State.drives_of_modes {s t : State} (h : t.modes = s.modes) : t.drives = s.drives := by
  unfold State.drives
  rw [h]

/-- The forwarding path once all that was due is driven (R9, R11). -/
theorem State.forwarded_fwd (s : State) :
    s.forwarded.fwd =
      { s.fwd with
        txCommand := none, txWrite := none, txRead := none
        pins :=
          { s.fwd.pins with
            command := s.fwd.txCommand <|> s.fwd.pins.command
            writeBeats := (s.fwd.txWrite.map fun h => (s.drives h.first, s.drives h.second)) <|>
              s.fwd.pins.writeBeats
            readBeats := s.fwd.txRead <|> s.fwd.pins.readBeats } } := by
  have modes : s.forwardCommand.modes = s.modes := by rw [s.forwardCommand_fwd]
  unfold State.forwarded
  rw [State.forwardRead_pins, State.forwardWrite_fwd, State.forwardCommand_pins, State.drives_of_modes modes]

/-! ### A slot's last events beside forwarding -/

theorem State.owedRest_fwd (s : State) : s.owedRest.fwd = s.fwd :=
  (s.owedRest_changes (I := False) (K := (· ≠ .forwarding)) ⟨⟨nofun, nofun, nofun⟩, nofun, nofun, nofun⟩ nofun
    False.elim).fwd fun h => h rfl

theorem State.owedEvents_fwd (s : State) : s.owedEvents.fwd = s.forwarded.fwd := by
  rw [s.owedEvents_eq, State.owedRest_fwd]
  rfl

theorem State.forwarded_shadow (s : State) : s.SameShadow s.forwarded :=
  (s.forwarded_changes (I := False) (K := (· ≠ .shadow)) ⟨nofun, nofun, nofun⟩ nofun nofun).sameShadow fun h => h rfl

theorem State.owedRest_shadow (s : State) : s.SameShadow s.owedRest :=
  (s.owedRest_changes (I := False) (K := (· ≠ .shadow)) ⟨⟨nofun, nofun, nofun⟩, nofun, nofun, nofun⟩ nofun
    False.elim).sameShadow fun h => h rfl

theorem State.owedEvents_now (s : State) : s.owedEvents.now = s.now :=
  (s.owedEvents_changes (I := False) (K := fun e => e.owed = true) (fun _ h => h) False.elim).now nofun

theorem State.owedEvents_porst (s : State) : s.owedEvents.porst = s.porst :=
  (s.owedEvents_changes (I := False) (K := fun e => e.owed = true) (fun _ h => h) False.elim).porst nofun

/-- Of the shadow what a slot owes reaches the banks alone. -/
theorem State.owedEvents_channel (s : State) : s.owedEvents.chan = s.chan ∧ s.owedEvents.modes = s.modes := by
  obtain ⟨chan, -, modes⟩ := s.forwarded_shadow
  obtain ⟨chan', -, modes'⟩ := s.forwarded.allCompletions.owedRest_shadow
  exact ⟨chan'.trans chan, modes'.trans modes⟩

/-- A bank after what the slot owes: its auto-close completes if it is due (R25). -/
theorem State.owedEvents_bank (s : State) (b : BankNo) :
    s.owedEvents.bank b =
      if (s.bank b).completionDue s.now then (s.bank b).afterCompletion s.now else s.bank b := by
  obtain ⟨-, banks, -⟩ := s.forwarded_shadow
  obtain ⟨-, banks', -⟩ := s.forwarded.allCompletions.owedRest_shadow
  have same : s.forwarded.bank b = s.bank b := by simp [State.bank, banks]
  have now : s.forwarded.now = s.now :=
    (s.forwarded_changes (I := False) (K := (· ≠ .clock)) ⟨nofun, nofun, nofun⟩ nofun nofun).now fun h => h rfl
  have rest : s.owedEvents.bank b = s.forwarded.allCompletions.bank b := by
    rw [s.owedEvents_eq]
    simp only [State.bank, banks']
  rw [rest, State.allCompletions, State.bank_mapBanks, same, now]

theorem State.request_fwd (s : State) (c : Instr) : (s.request c).fwd = s.fwd := by
  unfold State.request
  split
  · rfl
  · next h =>
    obtain ⟨-, fwd, -, -, -⟩ := State.requestEffect_request h
    exact fwd

theorem State.serveWaiting_fwd (s : State) : s.serveWaiting.fwd = s.fwd := by
  unfold State.serveWaiting
  split
  · rfl
  · exact s.request_fwd _

theorem State.lastEvents_fwd (s : State) : s.lastEvents.fwd = s.forwarded.fwd :=
  (State.serveWaiting_fwd _).trans s.owedEvents_fwd

theorem State.lastEvents_wires (s : State) : s.lastEvents.wires = s.wires :=
  (State.serveWaiting_wires _).trans s.owedEvents_wires

/-- The forwarding path in the next slot (R9, R178). -/
theorem State.advance_fwd (u : State) :
    u.takeEdges.takeWires.openSlot.fwd =
      { rxCommand := none, txCommand := u.fwd.rxCommand, rxWrite := none, txWrite := u.fwd.rxWrite
        rxRead := none, txRead := u.fwd.rxRead, mrst := u.fwd.mrst, pins := Outputs.idle u.fwd.mrst
        ended := u.fwd.pins } := by
  have same : u.takeEdges.fwd = u.fwd := by
    rw [u.takeEdges_offerStep]
    rfl
  rw [← same]
  rfl

/-- The shadow passes to the next slot as it is. -/
theorem State.advance_shadow (u : State) : u.SameShadow u.takeEdges.takeWires.openSlot := by
  have same : u.SameShadow u.takeEdges := by
    rw [u.takeEdges_offerStep]
    exact ⟨rfl, rfl, rfl⟩
  exact same

/-- The port takes what its pins did in the slot (R183). -/
theorem State.advance_port (u : State) :
    u.takeEdges.takeWires.openSlot.port = (u.wires.headD []).foldl Port.wire u.port := by
  have same : u.takeEdges.port = u.port ∧ u.takeEdges.wires = u.wires := by
    rw [u.takeEdges_offerStep]
    exact ⟨rfl, rfl⟩
  obtain ⟨port, wires⟩ := same
  change (u.takeEdges.wires.headD []).foldl Port.wire u.takeEdges.port = _
  rw [port, wires]

theorem State.advance_wires (u : State) : u.takeEdges.takeWires.openSlot.wires = u.wires.tail := by
  have same : u.takeEdges.wires = u.wires := by
    rw [u.takeEdges_offerStep]
    rfl
  change u.takeEdges.wires.tail = _
  rw [same]

/-! ### The request that waits (R183, R184) -/

theorem requestEffect_writeOf (s : State) (group index : Byte) (value : List Byte)
    (h : writeBytes group ≤ value.length) : ∃ p, s.requestEffect (writeOf group index value) = some p := by
  have plain : ∃ p, s.requestEffect (.writeItem group index (value.take (writeBytes group))) = some p :=
    ⟨_, if_pos (by simp [h])⟩
  unfold writeOf
  simp only
  split
  · exact plain
  · split
    · split <;> exact ⟨_, rfl⟩
    all_goals first
      | exact ⟨_, rfl⟩
      | exact plain

/-- A complete WRITE ITEM carries its address bytes and its group's value bytes (R183). -/
theorem requestComplete_write {code : Byte} {operands : List Byte} (hcode : code.toNat = 0x02)
    (h : requestComplete (code :: operands) = true) :
    ∃ group index value, operands = group :: index :: value ∧ writeBytes group ≤ value.length := by
  have defined : operandBytes code = some 2 := by simp [operandBytes, hcode]
  simp only [requestComplete, defined, hcode, if_true] at h
  split at h
  · next group index value => exact ⟨group, index, value, rfl, by simpa using h⟩
  · cases h

/-- The codes of the seventeen requests (11.1). -/
def requestCodes : List Nat :=
  [0x01, 0x02, 0x03, 0x04, 0x05, 0x10, 0x11, 0x12, 0x18, 0x19, 0x20, 0x28, 0x29, 0x30, 0x38, 0x40, 0x5A]

theorem operandBytes_none {code : Byte} (h : code.toNat ∉ requestCodes) : operandBytes code = none := by
  unfold operandBytes
  split
  case h_18 => rfl
  all_goals
    next hc => exact absurd (by rw [hc]; decide) h

/-- What the bytes of a complete request are read as has an effect. -/
theorem requestEffect_of_requestOf (s : State) {l : List Byte} {c : Instr} (h : requestOf l = some c) :
    ∃ p, s.requestEffect c = some p := by
  unfold requestOf at h
  split at h
  · cases h
  · cases h
  · next code operands hc =>
    rw [← Option.some.inj h]
    split
    case h_2 hcode =>
      obtain ⟨group, index, value, rfl, room⟩ := requestComplete_write hcode hc
      exact requestEffect_writeOf s group index value room
    case h_18 =>
      have undefined : code.toNat ∉ requestCodes := by simp_all [requestCodes]
      exact ⟨_, if_neg (by simp [operandBytes_none undefined])⟩
    all_goals exact ⟨_, rfl⟩

theorem State.respond_portWaiting (s : State) (a : Answer) : (s.respond a).port.waiting = none := by
  unfold State.respond Port.settle
  cases s.port.waiting <;> rfl

theorem State.request_frame (s : State) {c : Instr} {p : State × Answer} (h : s.requestEffect c = some p) :
    (s.request c).port.waiting = none ∧ (s.request c).pending = s.pending ∧ (s.request c).wires = s.wires := by
  obtain ⟨t, a⟩ := p
  obtain ⟨-, -, -, wires, pending⟩ := State.requestEffect_request h
  rw [s.request_of h]
  exact ⟨t.respond_portWaiting a, pending, wires⟩

/-- The request that waits takes effect after what the slot owes, exactly as its row would (R183). -/
theorem exec_owedEvents (s : State) {c : Instr} {p : State × Answer} (hp : s.porst = false)
    (hw : s.port.waiting = some c) (h : s.owedEvents.requestEffect c = some p) :
    exec c s.owedEvents = .next s.lastEvents := by
  have up : s.owedEvents.porst = false := s.owedEvents_porst.trans hp
  have waits : s.owedEvents.port.waiting = some c := by rw [s.owedEvents_port, hw]
  have admits : s.owedEvents.admits c = true := by simp [State.admits, waits]
  rw [exec_of_requestEffect h, State.serve_up _ c up admits]
  exact congrArg Host.Outcome.next (State.serveWaiting_some _ waits).symm

/-- Settles O27: what is due is driven, what a slot owes then leaves forwarding as it is, and the next slot's start
moves on what was received; the request that waits is the row of its command, taken last. -/
theorem slotPassesAndForwards : Obligations.SlotPassesAndForwards := by
  unfold Obligations.SlotPassesAndForwards
  refine ⟨fun s hp => ⟨fun w hw => ?_, fun d hd => ?_⟩, fun s hp => ?_, fun s l c hp hw hl => ?_⟩
  · rw [exec_up (f := State.forwardCommand) rfl hp, s.forwardCommand_held hw]
  · rw [exec_up (f := State.forwardRead) rfl hp, s.forwardRead_held hd]
  · intro driven
    have advance := exec_slotAdvance_up s hp
    have fwd := s.lastEvents.advance_fwd
    have wires := s.lastEvents.advance_wires
    rw [s.lastEvents_wires] at wires
    rw [s.lastEvents_fwd, s.forwarded_fwd] at fwd
    have waitless : s.port.waiting = none →
        s.lastEvents.takeEdges.takeWires.openSlot.now = s.now + 1 ∧
        s.lastEvents.takeEdges.takeWires.openSlot.chan = s.chan ∧
        s.lastEvents.takeEdges.takeWires.openSlot.modes = s.modes ∧
        s.lastEvents.takeEdges.takeWires.openSlot.port = (s.wires.headD []).foldl Port.wire s.port := by
      intro hw
      obtain ⟨chan, -, modes⟩ := s.lastEvents.advance_shadow
      rw [State.advance_now, chan, modes, State.advance_port, s.lastEvents_wires, s.lastEvents_of_none hw,
        s.owedEvents_now, s.owedEvents_port]
      exact ⟨rfl, s.owedEvents_channel.1, s.owedEvents_channel.2, rfl⟩
    have turns : s.lastEvents.takeEdges.takeWires.openSlot.turns = Turns.fresh := rfl
    generalize s.lastEvents.takeEdges.takeWires.openSlot = t at advance fwd wires waitless turns
    refine ⟨t, advance, turns, wires, ?_⟩
    rw [fwd]
    exact ⟨rfl, rfl, rfl, rfl, rfl, rfl, rfl, rfl, rfl, waitless⟩
  · obtain ⟨p, effect⟩ := requestEffect_of_requestOf s.owedEvents hl
    have waits : s.owedEvents.port.waiting = some c := by rw [s.owedEvents_port, hw]
    have served : s.lastEvents = s.owedEvents.request c := State.serveWaiting_some _ waits
    obtain ⟨waiting, pending, wires⟩ := s.owedEvents.request_frame effect
    rw [← served] at waiting pending wires
    have port := s.lastEvents.advance_port
    rw [s.lastEvents_wires] at port
    refine ⟨_, exec_owedEvents s hp hw effect, waiting, pending.trans ?_, wires.trans s.owedEvents_wires,
      exec_slotAdvance_up s hp, port⟩
    exact (s.owedEvents_changes (I := False) (K := fun _ => True) (fun _ _ => trivial) False.elim).pending

/-! ### Auto-close (R25) -/

theorem State.completeAutoClose_due (s : State) {b : BankNo} {row : Row}
    (h : (s.bank b).state = .closing row s.now) :
    s.completeAutoClose b = s.setBank b { s.bank b with state := .closed, closeStamp := some s.now } :=
  if_pos (by simp [Bank.completionDue, h])

theorem State.completeAutoClose_notDue (s : State) {b : BankNo}
    (h : ∀ row, (s.bank b).state ≠ .closing row s.now) : s.completeAutoClose b = s := by
  refine if_neg fun due => ?_
  unfold Bank.completionDue at due
  split at due
  · next row stamp hstate =>
    rw [beq_iff_eq] at due
    exact h row (due ▸ hstate)
  · cases due

/-- A request that does not reach the shadow leaves it at the slot's end. -/
theorem State.lastEvents_shadow (s : State) (h : ∀ w, s.port.waiting = some w → w.reachesShadow = false) :
    s.owedEvents.SameShadow s.lastEvents := by
  have allowed (w : Instr) (hw : w ∈ s.owedEvents.port.waiting) : Allows (· ≠ .shadow) w := by
    rintro e he rfl
    rw [s.owedEvents_port] at hw
    exact Bool.false_ne_true ((h w hw).symm.trans he)
  exact (s.owedEvents.serveWaiting_changes (I := False) (K := (· ≠ .shadow)) allowed False.elim).sameShadow fun h => h rfl

/-- Settles O26: the completion due is the bank's close; a slot's end takes it before the request that waits. -/
theorem autoCloseCompletes : Obligations.AutoCloseCompletes := by
  unfold Obligations.AutoCloseCompletes
  intro s b hp
  refine ⟨fun row hrow => ⟨?_, fun hw => ?_⟩, fun hrow => ?_⟩
  · rw [exec_up (f := fun t => t.completeAutoClose b) rfl hp, s.completeAutoClose_due hrow]
  · refine ⟨_, exec_slotAdvance_up s hp, ?_⟩
    obtain ⟨-, banks, -⟩ := s.lastEvents.advance_shadow
    obtain ⟨-, banks', -⟩ := s.lastEvents_shadow hw
    have due : (s.bank b).completionDue s.now = true := by simp [Bank.completionDue, hrow]
    have closed : s.owedEvents.bank b = (s.bank b).afterCompletion s.now := by
      rw [s.owedEvents_bank, if_pos due]
    simp only [State.bank, banks, banks'] at closed ⊢
    exact closed
  · rw [exec_up (f := fun t => t.completeAutoClose b) rfl hp, s.completeAutoClose_notDue hrow]

end Sys2Proof.Machine
end

section
/-! SUPPORT. What an event hands over, in the words of the statements: hits that act, ACCESS records offered, guard
reports, and the retirement of entries (`HitsActed`, `AccessQueued`, `GuardLatched`, `HandedOver`). -/
namespace Sys2Proof.Machine

/-! ### Pulses -/

/-- The pin with a pulse begun (R175). -/
def Cue.pulsed (c : Cue) : Cue := { c with remaining := c.width.toNat, active := true }

theorem Cue.pulsed_pulsed (c : Cue) : c.pulsed.pulsed = c.pulsed := rfl

/-- A pulse begun on a pin that may have one is the pulse of either request. -/
theorem Cue.pulsed_ite (c : Cue) (f old new : Prop) [Decidable f] [Decidable old] [Decidable new] :
    (if f ∧ new then (if f ∧ old then c.pulsed else c).pulsed else if f ∧ old then c.pulsed else c) =
      if f ∧ (old ∨ new) then c.pulsed else c := by
  by_cases hf : f <;> by_cases ho : old <;> by_cases hn : new <;> simp [hf, ho, hn, Cue.pulsed_pulsed]

theorem State.requestPulse_cue (s : State) (f : CueFunction) (q p : PinNo) :
    (s.requestPulse f q).cue p = if p = q ∧ (s.cue p).function = f then (s.cue p).pulsed else s.cue p := by
  unfold State.requestPulse
  by_cases h : p = q
  · subst h
    by_cases hf : (s.cue p).function = f
    · simp [hf, Cue.pulsed]
    · simp [hf]
  · simp only [h, false_and, if_false]
    split
    · exact s.cue_setCue_other _ h
    · rfl

theorem State.requestPulse_frame (s : State) (f : CueFunction) (q : PinNo) :
    s.requestPulse f q = { s with cues := (s.requestPulse f q).cues } := by
  unfold State.requestPulse
  simp only
  split <;> rfl

/-- Pulse requests of one source, one after the other. -/
def State.requestPulses (s : State) (f : CueFunction) (pin : Fin 16 → PinNo) (l : List (Fin 16)) : State :=
  l.foldl (fun t k => t.requestPulse f (pin k)) s

theorem State.requestPulses_frame (s : State) (f : CueFunction) (pin : Fin 16 → PinNo) (l : List (Fin 16)) :
    s.requestPulses f pin l = { s with cues := (s.requestPulses f pin l).cues } := by
  induction l generalizing s with
  | nil => rfl
  | cons k l ih =>
    change (s.requestPulse f (pin k)).requestPulses f pin l = _
    rw [ih]
    exact congrArg (fun u : State => { u with cues := ((s.requestPulse f (pin k)).requestPulses f pin l).cues })
      (s.requestPulse_frame f (pin k))

theorem State.requestPulses_cue (s : State) (f : CueFunction) (pin : Fin 16 → PinNo) (l : List (Fin 16))
    (p : PinNo) :
    (s.requestPulses f pin l).cue p =
      if (s.cue p).function = f ∧ ∃ k ∈ l, pin k = p then (s.cue p).pulsed else s.cue p := by
  induction l generalizing s with
  | nil => simp [State.requestPulses]
  | cons k l ih =>
    change ((s.requestPulse f (pin k)).requestPulses f pin l).cue p = _
    rw [ih, State.requestPulse_cue]
    by_cases hf : (s.cue p).function = f
    · by_cases hp : p = pin k
      · simp [← hp, hf, Cue.pulsed]
      · simp [hf, hp, Ne.symm hp]
    · simp [hf]

/-! ### Hits (R98) -/

theorem State.mem_hitsWith (s : State) (hits : WindowSet) (action : WindowActions → Bool) (k : Fin 16) :
    k ∈ s.hitsWith hits action ↔ hits.getLsbD k.val = true ∧ action s.windows[k].fields.actions = true := by
  simp [State.hitsWith, State.window]

theorem State.hitEffects_eq (s : State) (hits : WindowSet) :
    (s.hitEffects hits).1 =
      State.requestPulses { s with windows := countHits s.windows hits } .windowCue
        (fun k => s.windows[k].fields.cuePin) (s.hitsWith hits (·.cue)) := rfl

theorem State.hitEffects_frame (s : State) (hits : WindowSet) :
    (s.hitEffects hits).1 =
      { s with windows := countHits s.windows hits, cues := (s.hitEffects hits).1.cues } := by
  rw [s.hitEffects_eq, State.requestPulses_frame]

theorem State.hitEffects_occurrences (s : State) (hits : WindowSet) :
    (s.hitEffects hits).2 = s.seqHits hits := by
  simp [State.hitEffects, State.hitsWith, State.seqHits, members, List.filter_filter, State.window, Bool.and_comm]

theorem State.hitEffects_cue (s : State) (hits : WindowSet) (p : PinNo) :
    (s.hitEffects hits).1.cue p =
      if (s.cue p).function = .windowCue ∧ ∃ k : Fin 16, hits.getLsbD k.val = true ∧
          s.windows[k].fields.actions.cue = true ∧ s.windows[k].fields.cuePin = p then (s.cue p).pulsed
      else s.cue p := by
  rw [s.hitEffects_eq, State.requestPulses_cue]
  simp only [State.mem_hitsWith, and_assoc]
  rfl

theorem State.HitsActed.refl (s : State) : s.HitsActed s [] := by
  refine ⟨fun k => ?_, fun p => ?_⟩
  · simp
  · simp

/-- `HitsActed` reads of the state after the windows and the pins. -/
theorem State.HitsActed.congr {s t t' : State} {hits : List WindowSet} (h : s.HitsActed t hits)
    (hw : t'.windows = t.windows) (hc : t'.cues = t.cues) : s.HitsActed t' hits := by
  unfold State.HitsActed at h ⊢
  rw [hw, hc]
  exact h

theorem State.HitsActed.fields {s t : State} {hits : List WindowSet} (h : s.HitsActed t hits) (k : Fin 16) :
    t.windows[k].fields = s.windows[k].fields := by
  rw [h.1 k]

theorem State.HitsActed.function {s t : State} {hits : List WindowSet} (h : s.HitsActed t hits) (p : Fin 4) :
    t.cues[p].function = s.cues[p].function ∧ t.cues[p].width = s.cues[p].width := by
  rw [h.2 p]
  split <;> exact ⟨rfl, rfl⟩

/-- A counter that stops at its maximum, after one count more (R98, R155). -/
theorem capped_succ (most c n : Nat) :
    min ((if n = 0 then c else min (c + n) most) + 1) most = if n + 1 = 0 then c else min (c + (n + 1)) most := by
  split <;> simp <;> omega

/-- The hits of one access more. -/
theorem State.HitsActed.step {s t : State} {hits : List WindowSet} (h : s.HitsActed t hits) (more : WindowSet) :
    s.HitsActed (t.hitEffects more).1 (hits ++ [more]) := by
  refine ⟨fun k => ?_, fun p => ?_⟩
  · have window : (t.hitEffects more).1.windows[k] = (countHits t.windows more)[k] := by
      rw [t.hitEffects_frame]
    rw [window, countHits_get, h.fields k, List.countP_append, List.countP_singleton]
    cases hk : more.getLsbD k.val && s.windows[k].fields.actions.count with
    | true =>
      simp only [if_true]
      rw [← capped_succ, h.1 k]
      rfl
    | false =>
      rw [h.1 k]
      rfl
  · have pin (u : State) : u.cues[p] = u.cue (BitVec.ofFin p) := rfl
    have same (k : Fin 16) : (t.windows[k].fields.cuePin = BitVec.ofFin p) ↔
        s.windows[k].fields.cuePin.toNat = p.val := by
      rw [h.fields k]
      exact ⟨fun e => by rw [e]; rfl, fun e => BitVec.eq_of_toNat_eq e⟩
    have act (k : Fin 16) : t.windows[k].fields.actions = s.windows[k].fields.actions := by rw [h.fields k]
    rw [pin, State.hitEffects_cue, ← pin, (h.function p).1, h.2 p]
    simp only [same, act, List.mem_append, List.mem_singleton, or_and_right, exists_or, exists_eq_left]
    exact Cue.pulsed_ite _ _ _ _

end Sys2Proof.Machine
end

section
/-! SUPPORT. The hand-over of retired entries in the words of the statements (`HandedOver`). -/
namespace Sys2Proof.Machine

/-! ### What a hand-over leaves standing -/

/-- Before its offers are handed out a hand-over reaches access staging, the guard latches, CAPTURE_GAP, hit counters,
pins and the accounts that wait: what the other statements of it read stands as it was. -/
structure State.Stands (s t : State) : Prop where
  seq : t.seq = s.seq
  capture : t.capture = { s.capture with access := t.capture.access }
  latch : ∀ i, i ≠ 1 → i ≠ 2 → i ≠ 3 → i ≠ 8 → t.alert.latches.getLsbD i = s.alert.latches.getLsbD i
  gap : s.alert.latches.getLsbD 8 = true → t.alert.latches.getLsbD 8 = true
  fields : ∀ k : Fin 16, t.windows[k].fields = s.windows[k].fields
  fwd : t.fwd = s.fwd
  now : t.now = s.now

theorem State.Stands.refl (s : State) : s.Stands s := ⟨rfl, rfl, fun _ _ _ _ _ => rfl, id, fun _ => rfl, rfl, rfl⟩

theorem State.Stands.trans {s t u : State} (h : s.Stands t) (k : t.Stands u) : s.Stands u where
  seq := k.seq.trans h.seq
  capture := by rw [k.capture, h.capture]
  latch i h1 h2 h3 h8 := (k.latch i h1 h2 h3 h8).trans (h.latch i h1 h2 h3 h8)
  gap := fun hs => k.gap (h.gap hs)
  fields n := (k.fields n).trans (h.fields n)
  fwd := k.fwd.trans h.fwd
  now := k.now.trans h.now

theorem State.Stands.running {s t : State} (h : s.Stands t) : t.capture.running = s.capture.running := by
  rw [h.capture]
  rfl

theorem State.hitEffects_stands (s : State) (hits : WindowSet) : s.Stands (s.hitEffects hits).1 := by
  rw [s.hitEffects_frame]
  exact ⟨rfl, rfl, fun _ _ _ _ _ => rfl, id, fun k => (countHits_program s.windows hits k).1, rfl, rfl⟩

theorem State.join_stands (s : State) (a b : Offers) : s.Stands (s.join a b).1 :=
  ⟨rfl, rfl, fun _ _ _ _ _ => rfl, id, fun _ => rfl, rfl, rfl⟩

/-! ### ACCESS records offered (R148, R154, R155) -/

theorem Cause.set_getLsbD (c : Cause) (i : Nat) : c.set.getLsbD i = decide (i = c.bit) := by
  have bound : c.bit < 10 := by cases c <;> decide
  rw [Cause.set, BitVec.getLsbD_twoPow, Bool.eq_iff_iff]
  simp only [Bool.and_eq_true, decide_eq_true_eq]
  omega

theorem State.setLatchIf_latch (s : State) (c : Cause) (b : Bool) (i : Nat) :
    (s.setLatchIf c b).alert.latches.getLsbD i = (s.alert.latches.getLsbD i || b && c.set.getLsbD i) := by
  rw [State.setLatchIf_eq]
  cases b <;> simp

theorem State.setLatchIf_frame (s : State) (c : Cause) (b : Bool) :
    s.setLatchIf c b = { s with alert := (s.setLatchIf c b).alert } := by
  cases b <;> rfl

theorem State.offer_access_stands (s : State) (r : Record) : s.Stands (s.offer .access r) := by
  by_cases hrun : s.capture.running = true
  · by_cases hl : (s.capture.queue .access).records.length < QueueId.access.places
    · rw [s.offer_place .access r hrun hl]
      exact ⟨rfl, rfl, fun _ _ _ _ _ => rfl, id, fun _ => rfl, rfl, rfl⟩
    · rw [s.offer_lost .access r hrun hl]
      refine ⟨?_, ?_, fun i _ _ _ h8 => ?_, fun h => ?_, fun k => ?_, ?_, ?_⟩
      · rw [State.setLatchIf_seq]; rfl
      · rw [State.setLatchIf_capture]; rfl
      · rw [State.setLatchIf_latch, Cause.set_getLsbD, Cause.bit, decide_eq_false h8, Bool.and_false, Bool.or_false]; rfl
      · rw [State.setLatchIf_latch]; exact Bool.or_eq_true_iff.mpr (.inl h)
      · rw [State.setLatchIf_windows]; rfl
      · rw [State.setLatchIf_fwd]; rfl
      · rw [State.setLatchIf_now]; rfl
  · rw [s.offer_stopped .access r (by simpa using hrun)]
    exact .refl s

theorem State.AccessQueued.refl (s : State) : s.AccessQueued s [] := by
  refine ⟨fun _ => rfl, fun _ hl => ⟨?_, ?_, ?_⟩⟩
  · rw [List.map_nil, List.append_nil, List.take_of_length_le hl]
  · simp [Nat.sub_eq_zero_of_le hl]
  · intro h
    exact absurd (Nat.sub_eq_zero_of_le hl) h

/-- `AccessQueued` reads of the state after access staging and CAPTURE_GAP. -/
theorem State.AccessQueued.congr {s t t' : State} {l : List AccessRec} (h : s.AccessQueued t l)
    (ha : t'.capture.access = t.capture.access)
    (hg : t.alert.latches.getLsbD 8 = true → t'.alert.latches.getLsbD 8 = true) : s.AccessQueued t' l := by
  obtain ⟨stopped, running⟩ := h
  refine ⟨fun hs => ha.trans (stopped hs), fun hr hl => ?_⟩
  obtain ⟨records, lost, gap⟩ := running hr hl
  rw [ha]
  exact ⟨records, lost, fun he h0 => hg (gap he h0)⟩

theorem State.Stands.accessQueued {s t t' : State} {l : List AccessRec} (h : s.AccessQueued t l)
    (k : t.Stands t') (ha : t'.capture.access = t.capture.access) : s.AccessQueued t' l :=
  h.congr ha k.gap

/-- One ACCESS record more. -/
theorem State.AccessQueued.offer {s t : State} {l : List AccessRec} (h : s.AccessQueued t l) (k : s.Stands t)
    (r : AccessRec) : s.AccessQueued (t.offer .access (.access r)) (l ++ [r]) := by
  obtain ⟨stopped, running⟩ := h
  refine ⟨fun hs => ?_, fun hr hl => ?_⟩
  · rw [t.offer_stopped _ _ (k.running.trans hs)]
    exact stopped hs
  · obtain ⟨records, lost, gap⟩ := running hr hl
    have trun : t.capture.running = true := k.running.trans hr
    have placed : t.capture.access.records.length = min 4 (s.capture.access.records.length + l.length) := by
      rw [records]
      simp
    have total : (l ++ [r]).length = l.length + 1 := by simp
    by_cases room : s.capture.access.records.length + l.length < 4
    · have free : (t.capture.queue .access).records.length < QueueId.access.places := by
        change t.capture.access.records.length < 4
        omega
      have none : s.capture.access.records.length + (l ++ [r]).length - 4 = 0 := by omega
      have none' : s.capture.access.records.length + l.length - 4 = 0 := by omega
      rw [t.offer_place _ _ trun free]
      simp only [none', if_true] at lost
      refine ⟨?_, ?_, fun he => absurd none he⟩
      · change t.capture.access.records ++ [Record.access r] = _
        rw [records, List.take_of_length_le (by simp; omega), List.take_of_length_le (by simp; omega)]
        simp
      · rw [none]
        exact lost
    · have full : ¬ (t.capture.queue .access).records.length < QueueId.access.places := by
        change ¬ t.capture.access.records.length < 4
        omega
      have more : s.capture.access.records.length + (l ++ [r]).length - 4 ≠ 0 := by omega
      rw [t.offer_lost _ _ trun full, State.setLatchIf_capture]
      refine ⟨?_, ?_, fun _ h0 => ?_⟩
      · change t.capture.access.records = _
        rw [records, List.map_append, ← List.append_assoc,
          List.take_append_of_le_length (l₁ := s.capture.access.records ++ l.map Record.access) (by simp; omega)]
      · have succ : s.capture.access.records.length + (l ++ [r]).length - 4 =
            s.capture.access.records.length + l.length - 4 + 1 := by omega
        rw [succ, ← capped_succ, ← lost]
        rfl
      · rw [State.setLatchIf_latch]
        by_cases first : s.capture.access.records.length + l.length - 4 = 0
        · have zero : t.capture.access.lost = 0 := by rw [lost, if_pos first, h0]
          have set : ((t.capture.queue .access).lost == 0) = true := by simpa [Capture.queue] using zero
          rw [set, Cause.set_getLsbD]
          simp [Cause.bit]
        · exact Bool.or_eq_true_iff.mpr (.inl (gap first h0))

theorem State.anyHitHas_iff (s : State) (hits : WindowSet) (action : WindowActions → Bool) :
    s.anyHitHas hits action = true ↔ s.SomeHit hits action := by
  have nonempty (l : List (Fin 16)) : (!l.isEmpty) = true ↔ ∃ k, k ∈ l := by cases l <;> simp
  rw [State.anyHitHas, nonempty]
  exact exists_congr fun k => s.mem_hitsWith hits action k

/-- `SomeHit` reads the windows' fields alone. -/
theorem State.SomeHit.congr {s t : State} (h : ∀ k : Fin 16, t.windows[k].fields = s.windows[k].fields)
    (hits : WindowSet) (action : WindowActions → Bool) : t.SomeHit hits action ↔ s.SomeHit hits action := by
  unfold State.SomeHit
  simp only [h]

theorem State.offerAccess_stands (s : State) (hits : WindowSet) (r : Record) : s.Stands (s.offerAccess hits r) := by
  unfold State.offerAccess
  split
  · exact s.offer_access_stands r
  · exact .refl s

/-- The record of an access is offered while CAPTURE-ALL is on or a hit has CAPTURE (R148). -/
theorem State.AccessQueued.offerAccess {s t : State} {l : List AccessRec} (h : s.AccessQueued t l) (k : s.Stands t)
    (hits : WindowSet) (r : AccessRec) :
    s.AccessQueued (t.offerAccess hits (.access r))
      (l ++ if s.capture.settings.captureAll = true ∨ s.SomeHit hits (·.capture) then [r] else []) := by
  have settings : t.capture.settings = s.capture.settings := by rw [k.capture]
  have cond : (t.capture.settings.captureAll || t.anyHitHas hits (·.capture)) = true ↔
      s.capture.settings.captureAll = true ∨ s.SomeHit hits (·.capture) := by
    rw [Bool.or_eq_true, State.anyHitHas_iff, State.SomeHit.congr k.fields, settings]
  unfold State.offerAccess
  by_cases offered : s.capture.settings.captureAll = true ∨ s.SomeHit hits (·.capture)
  · rw [if_pos (cond.mpr offered), if_pos offered]
    exact h.offer k r
  · rw [if_neg (mt cond.mp offered), if_neg offered, List.append_nil]
    exact h

/-! ### Guard reports (R111 to R113) -/

theorem State.GuardLatched.refl (s : State) : s.GuardLatched s [] := by
  simp [State.GuardLatched]

/-- `GuardLatched` reads of the state after the three guard latches. -/
theorem State.GuardLatched.congr {s t t' : State} {l : List GuardRec} (h : s.GuardLatched t l)
    (hl : ∀ i, i = 1 ∨ i = 2 ∨ i = 3 → t'.alert.latches.getLsbD i = t.alert.latches.getLsbD i) :
    s.GuardLatched t' l := by
  unfold State.GuardLatched at h ⊢
  rw [hl 1 (by simp), hl 2 (by simp), hl 3 (by simp)]
  exact h

theorem State.report_latch (s : State) (r : GuardRec) (i : Nat) :
    (s.report r).1.alert.latches.getLsbD i =
      (((s.alert.latches.getLsbD i || decide (1 ≤ r.forced) && decide (i = 1)) || r.locked && decide (i = 2)) ||
        (r.unable || r.blind) && decide (i = 3)) := by
  simp only [State.report, State.setLatchIf_latch, Cause.set_getLsbD]
  rfl

theorem State.report_stands (s : State) (r : GuardRec) : s.Stands (s.report r).1 := by
  obtain ⟨same, -, -, -⟩ := s.report_step r
  have capture : (s.report r).1.capture = s.capture := by simp [State.report]
  refine ⟨by rw [same], by rw [capture], fun i h1 h2 h3 _ => ?_, fun h => ?_, fun k => ?_, by rw [same], by rw [same]⟩
  · simp only [s.report_latch, h1, h2, h3, decide_false, Bool.and_false, Bool.or_false]
  · simp only [s.report_latch, h, Bool.true_or]
  · rw [same]

/-- One report more. -/
theorem State.GuardLatched.report {s t : State} {l : List GuardRec} (h : s.GuardLatched t l) (r : GuardRec) :
    s.GuardLatched (t.report r).1 (l ++ [r]) := by
  obtain ⟨hit, locked, unable⟩ := h
  refine ⟨?_, ?_, ?_⟩
  · simp only [t.report_latch, hit, List.any_append, List.any_cons, List.any_nil, Bool.or_assoc, Bool.or_false]
    simp
  · simp only [t.report_latch, locked, List.any_append, List.any_cons, List.any_nil, Bool.or_assoc, Bool.or_false]
    simp
  · simp only [t.report_latch, unable, List.any_append, List.any_cons, List.any_nil, Bool.or_assoc, Bool.or_false]
    simp

/-- The report of a closing account, if it makes one (R111, R112). -/
theorem State.closeAccount_of_reports (s : State) {e : Entry} {a : Account} (ha : e.account = some a)
    (hr : a.reports = true) : s.closeAccount e = s.report (guardRecord e a) := by
  simp [State.closeAccount, ha, hr]

theorem Account.reports_iff (a : Account) :
    a.reports = true ↔ 1 ≤ a.forced ∨ 1 ≤ a.unprotected ∨ a.blind ≠ .none := by
  simp [Account.reports, or_assoc]

theorem lowest_eq_find? {w : Nat} (x : BitVec w) :
    lowest x = (List.finRange w).find? fun k => x.getLsbD k.val := by
  rw [lowest, members, List.head?_filter]

theorem guardRecord_of_reports {e : Entry} {a : Account} (h : a.reports = true) :
    reportOf e a = some (guardRecord e a) := by
  unfold reportOf
  rw [if_pos (a.reports_iff.mp h)]
  unfold guardRecord
  rw [lowest_eq_find?]
  cases a.blind <;> rfl

theorem reportOf_none {e : Entry} {a : Account} (h : ¬ a.reports = true) : reportOf e a = none :=
  if_neg (mt a.reports_iff.mpr h)

theorem State.closeAccount_none (s : State) {e : Entry} (h : ∀ a, e.account = some a → ¬ a.reports = true) :
    s.closeAccount e = (s, Offers.none) := by
  unfold State.closeAccount
  split
  · rfl
  · next a ha => exact if_neg (h a ha)

theorem Forwarding.holdsBeatOf_eq (s : State) (e : Entry) : s.fwd.holdsBeatOf e.number = s.beatHeld e := by
  unfold Forwarding.holdsBeatOf State.beatHeld
  have one (h : Option HeldWrite) :
      (match h with
        | some w => match w.source with
          | some (n, _) => n == e.number
          | none => false
        | none => false) = h.any fun w => w.source.any fun x => x.1 == e.number := by
    cases h with
    | none => rfl
    | some w => cases hs : w.source <;> simp [hs]
  simp only [List.any_cons, List.any_nil, Bool.or_false]
  exact congrArg₂ (· || ·) (one _) (one _)

end Sys2Proof.Machine
end

section
/-! SUPPORT. Entries that retire: each hand-over in the words of the statements, one entry after the other, and the
hand-out of what it offers (`HandedOver`). -/
namespace Sys2Proof.Machine

/-! ### What the hand-out leaves standing -/

theorem State.offer_gap (s : State) (q : QueueId) (r : Record) (h : s.alert.latches.getLsbD 8 = true) :
    (s.offer q r).alert.latches.getLsbD 8 = true := by
  unfold State.offer
  simp only
  split
  · exact h
  · split
    · exact h
    · rw [State.setLatchIf_latch]
      exact Bool.or_eq_true_iff.mpr (.inl h)

theorem State.offerEvents_gap (s : State) (rs : List Record) (h : s.alert.latches.getLsbD 8 = true) :
    (s.offerEvents rs).alert.latches.getLsbD 8 = true := by
  induction rs generalizing s with
  | nil => exact h
  | cons r rs ih =>
    refine ih _ ?_
    unfold State.offerEvent
    split
    · exact s.offer_gap _ _ h
    · exact h

theorem State.offerEvents_capture (s : State) (rs : List Record) :
    (s.offerEvents rs).capture = { s.capture with event := (s.offerEvents rs).capture.event } := by
  induction rs generalizing s with
  | nil => rfl
  | cons r rs ih =>
    rw [State.offerEvents_cons, ih, s.offerEvent_capture]

theorem State.offerOccurrences_latch (s : State) (os : List Occurrence) {i : Nat} (hi : i ≠ 7) :
    (s.offerOccurrences os).alert.latches.getLsbD i = s.alert.latches.getLsbD i := by
  by_cases ha : s.seq.state = .armed
  · rw [s.offerOccurrences_latches os ha, BitVec.getLsbD_or]
    split
    · simp [Cause.set_getLsbD, Cause.bit, hi]
    · simp
  · rw [s.offerOccurrences_dropped os ha]

/-- The hand-out sets SEQ_OVERRUN and CAPTURE_GAP alone. -/
theorem State.handOut_latch (s : State) (o : Offers) {i : Nat} (h7 : i ≠ 7) (h8 : i ≠ 8) :
    (s.handOut o).alert.latches.getLsbD i = s.alert.latches.getLsbD i := by
  unfold State.handOut
  rw [State.offerEvents_latch _ _ _ h8, State.offerOccurrences_latch _ _ h7]

theorem State.handOut_gap (s : State) (o : Offers) (h : s.alert.latches.getLsbD 8 = true) :
    (s.handOut o).alert.latches.getLsbD 8 = true :=
  State.offerEvents_gap _ _ ((s.offerOccurrences_latch _ (by decide)).trans h)

/-- Of trace capture the hand-out reaches event staging alone. -/
theorem State.handOut_capture (s : State) (o : Offers) :
    (s.handOut o).capture = { s.capture with event := (s.handOut o).capture.event } := by
  have h := (s.offerOccurrences o.occurrences).offerEvents_capture o.records
  rw [State.offerOccurrences_capture] at h
  exact h

/-! ### Sets of windows -/

theorem conditional_getLsbD (windows : Vector Window 16) (k : Fin 16) :
    (conditional windows).getLsbD k.val = windows[k].fields.cond.isSome := by
  rw [conditional, getLsbD_setOf_fin]
  simp

theorem WindowSet.ext {a b : WindowSet} (h : ∀ k : Fin 16, a.getLsbD k.val = b.getLsbD k.val) : a = b :=
  BitVec.eq_of_getLsbD_eq fun i hi => h ⟨i, hi⟩

theorem conditional_congr {v w : Vector Window 16} (h : ∀ k : Fin 16, v[k].fields = w[k].fields) :
    conditional v = conditional w :=
  WindowSet.ext fun k => by rw [conditional_getLsbD, conditional_getLsbD, h k]

theorem State.Stands.lateHits {s t : State} (h : s.Stands t) (e : Entry) : t.lateHits e = s.lateOf e := by
  unfold State.lateHits State.lateOf
  rw [conditional_congr h.fields]

theorem State.Stands.seqHits {s t : State} (h : s.Stands t) (hits : WindowSet) : t.seqHits hits = s.seqHits hits := by
  unfold State.seqHits
  simp only [h.fields]

theorem State.Stands.beatHeld {s t : State} (h : s.Stands t) (e : Entry) : t.beatHeld e = s.beatHeld e := by
  unfold State.beatHeld
  rw [h.fwd]

/-! ### The parts of a hand-over -/

/-- The entry with the hits decided at its retirement, in the words of the statements (R97). -/
def State.retired (s : State) (e : Entry) : Entry := { e with hits := e.hits ||| s.lateOf e }

/-- The ACCESS record of a retired entry is the one the statements give (R148, R149). -/
theorem State.Stands.accessRecord {s t : State} (h : s.Stands t) (e : Entry) (o : RetireOutcome) :
    t.accessRecord (s.retired e) o = .access (s.accessOf o e) := by
  have settings : t.capture.settings = s.capture.settings := by rw [h.capture]
  have data : (e.captured.isSome &&
      (t.capture.settings.captureAllData || t.anyHitHas (e.hits ||| s.lateOf e) (·.captureData))) =
      decide (e.captured ≠ none ∧ (s.capture.settings.captureAllData = true ∨
        s.SomeHit (e.hits ||| s.lateOf e) (·.captureData))) := by
    rw [Bool.eq_iff_iff, Bool.and_eq_true, Bool.or_eq_true, State.anyHitHas_iff, State.SomeHit.congr h.fields, settings,
      decide_eq_true_iff, Option.isSome_iff_ne_none]
  unfold State.accessRecord State.accessOf
  simp only [State.retired, data]

theorem State.retireAccount_held (s : State) {e : Entry} (ha : e.account.isSome = true) (hb : s.beatHeld e = true) :
    s.retireAccount e = ({ s with waiting := s.waiting ++ [e] }, Offers.none) :=
  if_pos (by rw [Forwarding.holdsBeatOf_eq, ha, hb]; rfl)

theorem State.retireAccount_closes (s : State) {e : Entry} (h : ¬ (e.account.isSome = true ∧ s.beatHeld e = true)) :
    s.retireAccount e = s.closeAccount e :=
  if_neg (by rwa [Forwarding.holdsBeatOf_eq, Bool.and_eq_true])

/-- The account of a retired entry by its report: it waits, closes with one, or closes without (R111). -/
theorem State.retireAccount_cases (s : State) (e : Entry) :
    (e.account.isSome = true ∧ s.beatHeld e = true ∧ s.reportAt e = none ∧
      s.retireAccount e = ({ s with waiting := s.waiting ++ [e] }, Offers.none)) ∨
    (¬ (e.account.isSome = true ∧ s.beatHeld e = true) ∧
      ((∃ r, s.reportAt e = some r ∧ s.retireAccount e = s.report r) ∨
        s.reportAt e = none ∧ s.retireAccount e = (s, Offers.none))) := by
  cases ha : e.account with
  | none =>
    have closes : ¬ (e.account.isSome = true ∧ s.beatHeld e = true) := by simp [ha]
    refine .inr ⟨by simp, .inr ⟨by simp [State.reportAt, ha], ?_⟩⟩
    rw [s.retireAccount_closes closes, s.closeAccount_none (by simp [ha])]
  | some a =>
    cases hb : s.beatHeld e with
    | true =>
      exact .inl ⟨rfl, rfl, by simp [State.reportAt, ha, hb], s.retireAccount_held (by simp [ha]) hb⟩
    | false =>
      have closes : ¬ (e.account.isSome = true ∧ s.beatHeld e = true) := by simp [hb]
      have at_report : s.reportAt e = reportOf e a := by simp [State.reportAt, ha, hb]
      rw [s.retireAccount_closes closes, at_report]
      refine .inr ⟨by simp, ?_⟩
      by_cases hr : a.reports = true
      · exact .inl ⟨_, guardRecord_of_reports hr, s.closeAccount_of_reports ha hr⟩
      · refine .inr ⟨reportOf_none hr, s.closeAccount_none fun b hb => ?_⟩
        rw [Option.some.inj (hb.symm.trans ha)]
        exact hr

theorem State.waiting_stands (s : State) (w : List Entry) : s.Stands { s with waiting := w } :=
  ⟨rfl, rfl, fun _ _ _ _ _ => rfl, id, fun _ => rfl, rfl, rfl⟩

theorem State.retireAccount_stands (s : State) (e : Entry) : s.Stands (s.retireAccount e).1 := by
  rcases s.retireAccount_cases e with ⟨-, -, -, h⟩ | ⟨-, ⟨r, -, h⟩ | ⟨-, h⟩⟩ <;> rw [h]
  · exact s.waiting_stands _
  · exact s.report_stands r
  · exact .refl s

theorem State.retireAccount_windows (s : State) (e : Entry) :
    (s.retireAccount e).1.windows = s.windows ∧ (s.retireAccount e).1.cues = s.cues ∧
    (s.retireAccount e).1.capture.access = s.capture.access := by
  rcases s.retireAccount_cases e with ⟨-, -, -, h⟩ | ⟨-, ⟨r, -, h⟩ | ⟨-, h⟩⟩ <;> rw [h]
  · exact ⟨rfl, rfl, rfl⟩
  · have same := (s.report_step r).1
    exact ⟨by rw [same], by rw [same], by simp [State.report]⟩
  · exact ⟨rfl, rfl, rfl⟩

/-! ### Entries handed over one after the other -/

/-- One member more of those picked from a list. -/
theorem map_filter_concat {α β : Type} (l : List α) (x : α) (p : α → Bool) (f : α → β) :
    ((l ++ [x]).filter p).map f = (l.filter p).map f ++ if p x = true then [f x] else [] := by
  rw [List.filter_append, List.map_append]
  congr 1
  by_cases h : p x = true <;> simp [h]

/-- The state part of the hand-over of the entries given, before anything is handed out. -/
structure State.Handed (s : State) (o : RetireOutcome) (es : List Entry) (t : State) : Prop where
  stands : s.Stands t
  hits : s.HitsActed t (es.map s.lateOf)
  access : s.AccessQueued t
    ((es.filter fun e => decide (s.capture.settings.captureAll = true ∨
      s.SomeHit (e.hits ||| s.lateOf e) (·.capture))).map (s.accessOf o))
  waiting : t.waiting = s.waiting ++ (es.filter fun e => e.account.isSome && s.beatHeld e).map s.retired
  latched : s.GuardLatched t (es.filterMap s.reportAt)

theorem State.Handed.nil (s : State) (o : RetireOutcome) (l : List Entry) :
    s.Handed o [] { s with tracker := l } where
  stands := ⟨rfl, rfl, fun _ _ _ _ _ => rfl, id, fun _ => rfl, rfl, rfl⟩
  hits := State.HitsActed.refl s
  access := State.AccessQueued.refl s
  waiting := (List.append_nil _).symm
  latched := State.GuardLatched.refl s

theorem State.Handed.join {s t : State} {o : RetireOutcome} {es : List Entry} (h : s.Handed o es t) (a b : Offers) :
    s.Handed o es (t.join a b).1 :=
  { h with stands := h.stands.trans (t.join_stands a b) }

/-- The state of `handing`, its parts named. -/
theorem State.Handed.handing_eq {s t : State} (h : s.Stands t) (e : Entry) (o : RetireOutcome) :
    t.handing e o =
      ((t.hitEffects (s.lateOf e)).1.offerAccess (e.hits ||| s.lateOf e) (.access (s.accessOf o e))).retireAccount
        (s.retired e) := by
  have same : t.lateEntry e = s.retired e := by simp [State.lateEntry, State.retired, h.lateHits]
  unfold State.handing
  simp only [h.lateHits, same, (h.trans (t.hitEffects_stands _)).accessRecord]
  rfl

theorem State.offerAccess_same (s : State) (hits : WindowSet) (r : Record) :
    (s.offerAccess hits r).windows = s.windows ∧ (s.offerAccess hits r).cues = s.cues ∧
    (s.offerAccess hits r).waiting = s.waiting := by
  have same := (s.offerAccess_step hits r).1
  exact ⟨by rw [same], by rw [same], by rw [same]⟩

theorem State.offer_access_guard (s : State) (r : Record) {i : Nat} (h : i ≠ 8) :
    (s.offer .access r).alert.latches.getLsbD i = s.alert.latches.getLsbD i := by
  unfold State.offer
  simp only
  split
  · rfl
  · split
    · rfl
    · rw [State.setLatchIf_latch, Cause.set_getLsbD, Cause.bit, decide_eq_false h, Bool.and_false, Bool.or_false]
      rfl

theorem State.offerAccess_guard (s : State) (hits : WindowSet) (r : Record) {i : Nat} (h : i ≠ 8) :
    (s.offerAccess hits r).alert.latches.getLsbD i = s.alert.latches.getLsbD i := by
  unfold State.offerAccess
  split
  · exact s.offer_access_guard r h
  · rfl

/-- `HitsActed`, `AccessQueued` and `GuardLatched` after the hits of one access and its ACCESS record. -/
theorem State.hit_offered {s t : State} {hs : List WindowSet} {l : List AccessRec} {reports : List GuardRec}
    (hk : s.Stands t) (hh : s.HitsActed t hs) (ha : s.AccessQueued t l) (hg : s.GuardLatched t reports)
    (more hits : WindowSet) (r : AccessRec) :
    let u := (t.hitEffects more).1.offerAccess hits (.access r)
    s.Stands u ∧ s.HitsActed u (hs ++ [more]) ∧
    s.AccessQueued u (l ++ if s.capture.settings.captureAll = true ∨ s.SomeHit hits (·.capture) then [r] else []) ∧
    s.GuardLatched u reports ∧ u.waiting = t.waiting := by
  intro u
  have frame := t.hitEffects_frame more
  have hit := hk.trans (t.hitEffects_stands more)
  obtain ⟨windows, cues, waiting⟩ := (t.hitEffects more).1.offerAccess_same hits (.access r)
  refine ⟨hit.trans (State.offerAccess_stands _ _ _), (hh.step more).congr windows cues, ?_, ?_, ?_⟩
  · exact (ha.congr (by rw [frame]) (by rw [frame]; exact id)).offerAccess hit hits r
  · refine hg.congr fun i hi => ?_
    have h8 : i ≠ 8 := by omega
    rw [State.offerAccess_guard _ _ _ h8, frame]
  · rw [waiting, frame]

/-- One entry more. -/
theorem State.Handed.step {s t : State} {o : RetireOutcome} {es : List Entry} (h : s.Handed o es t) (e : Entry) :
    s.Handed o (es ++ [e]) (t.handing e o).1 := by
  obtain ⟨stands, hits, access, waiting, latched⟩ := h
  rw [State.Handed.handing_eq stands e o]
  obtain ⟨ustands, uhits, uaccess, ulatched, uwaiting⟩ :=
    State.hit_offered stands hits access latched (s.lateOf e) (e.hits ||| s.lateOf e) (s.accessOf o e)
  generalize (t.hitEffects (s.lateOf e)).1.offerAccess (e.hits ||| s.lateOf e) (.access (s.accessOf o e)) = u at *
  obtain ⟨windows, cues, staged⟩ := u.retireAccount_windows (s.retired e)
  have last := u.retireAccount_stands (s.retired e)
  have held : u.beatHeld (s.retired e) = s.beatHeld e := ustands.beatHeld _
  have reported : u.reportAt (s.retired e) = s.reportAt e := by
    unfold State.reportAt
    rw [held]
    rfl
  have accounts := u.retireAccount_cases (s.retired e)
  have account : (s.retired e).account = e.account := rfl
  rw [held, reported, account] at accounts
  refine ⟨ustands.trans last, ?_, ?_, ?_, ?_⟩
  · rw [List.map_append]
    exact uhits.congr windows cues
  · rw [map_filter_concat]
    simp only [decide_eq_true_eq]
    exact State.Stands.accessQueued uaccess last staged
  · rw [map_filter_concat, ← List.append_assoc, ← waiting, ← uwaiting]
    rcases accounts with ⟨ha, hb, -, eq⟩ | ⟨hn, ⟨r, -, eq⟩ | ⟨-, eq⟩⟩
    · rw [eq, if_pos (Bool.and_eq_true_iff.mpr ⟨ha, hb⟩)]
    · rw [eq, if_neg (mt Bool.and_eq_true_iff.mp hn), List.append_nil, (u.report_step r).1]
    · rw [eq, if_neg (mt Bool.and_eq_true_iff.mp hn), List.append_nil]
  · rw [List.filterMap_append]
    rcases accounts with ⟨-, -, hr, eq⟩ | ⟨-, ⟨r, hr, eq⟩ | ⟨hr, eq⟩⟩
    · rw [eq, List.filterMap_cons_none hr]
      simpa using ulatched
    · rw [eq, List.filterMap_cons_some hr]
      exact ulatched.report r
    · rw [eq, List.filterMap_cons_none hr]
      simpa using ulatched

/-- What the hand-over of one entry offers: its late hits with SEQ and the report of its account. -/
theorem State.Stands.handOver_offers {s t : State} (h : s.Stands t) (e : Entry) (o : RetireOutcome) :
    Merges (t.handOver e o).2.occurrences
      ([s.seqHits (s.lateOf e)] ++ (s.reportAt e).toList.map fun _ => [.guardEvent]) ∧
    Merges (t.handOver e o).2.records ((s.reportAt e).toList.map fun r => [.guard r]) := by
  have occurrences : (t.hitEffects (t.lateHits e)).2 = s.seqHits (s.lateOf e) := by
    rw [State.hitEffects_occurrences, h.lateHits, h.seqHits]
  have offers : Merges (t.handing e o).2.occurrences ((s.reportAt e).toList.map fun _ => [.guardEvent]) ∧
      Merges (t.handing e o).2.records ((s.reportAt e).toList.map fun r => [.guard r]) := by
    rw [State.Handed.handing_eq h e o]
    have before := (h.trans (t.hitEffects_stands (s.lateOf e))).trans
      (State.offerAccess_stands _ (e.hits ||| s.lateOf e) (.access (s.accessOf o e)))
    generalize (t.hitEffects (s.lateOf e)).1.offerAccess (e.hits ||| s.lateOf e) (.access (s.accessOf o e)) = u
      at before ⊢
    have reported : u.reportAt (s.retired e) = s.reportAt e := by
      unfold State.reportAt
      rw [before.beatHeld]
      rfl
    have accounts := u.retireAccount_cases (s.retired e)
    rw [reported] at accounts
    rcases accounts with ⟨-, -, hr, eq⟩ | ⟨-, ⟨r, hr, eq⟩ | ⟨hr, eq⟩⟩ <;> rw [eq, hr]
    · exact ⟨.nil, .nil⟩
    · exact ⟨.single _, .single _⟩
    · exact ⟨.nil, .nil⟩
  rw [t.handOver_eq, occurrences]
  exact ⟨(Merges.single _).merged offers.1 _, Merges.nil.merged offers.2 _⟩

/-- What is handed over and then handed out is handed over in the sense of the statements. -/
theorem State.Handed.handedOver {s t : State} {o : RetireOutcome} {es : List Entry} (h : s.Handed o es t)
    {off : Offers} {rs : List (List Record)}
    (ho : Merges off.occurrences ((es.map fun e => s.seqHits (s.lateOf e)) ++
      (es.filterMap s.reportAt).map fun _ => [.guardEvent]))
    (hr : Merges off.records (((es.filterMap s.reportAt).map fun r => [.guard r]) ++ rs)) :
    s.HandedOver (t.handOut off) es o rs := by
  obtain ⟨stands, hits, access, waiting, latched⟩ := h
  have frame := t.handOut_offerStep off
  have capture := t.handOut_capture off
  refine ⟨hits.congr (by rw [frame]) (by rw [frame]), access.congr (by rw [capture]) (t.handOut_gap off), ?_,
    latched.congr fun i hi => t.handOut_latch off (by omega) (by omega), ?_⟩
  · rw [frame]
    exact waiting
  · refine (t.handOut_handedOut off ho hr).congr stands.seq ?_ ?_ ?_
      (stands.latch 7 (by decide) (by decide) (by decide) (by decide)) rfl rfl rfl
    all_goals rw [stands.capture]

end Sys2Proof.Machine
end

section
/-! SUPPORT. Retirement, effect slot and data slot of the tracker's entries, and the resets that abandon them. -/
namespace Sys2Proof.Machine

/-! ### One entry retires (R52, R53) -/

theorem State.handing_tracker (s : State) (e : Entry) (o : RetireOutcome) : (s.handing e o).1.tracker = s.tracker := by
  unfold State.handing
  have hit := s.hitEffects_frame (s.lateHits e)
  have offered := ((s.hitEffects (s.lateHits e)).1.offerAccess_step (s.lateEntry e).hits
    ((s.hitEffects (s.lateHits e)).1.accessRecord (s.lateEntry e) o)).1
  have kept (t : State) (x : Entry) : (t.retireAccount x).1.tracker = t.tracker := by
    rcases t.retireAccount_cases x with ⟨-, -, -, h⟩ | ⟨-, ⟨r, -, h⟩ | ⟨-, h⟩⟩ <;> rw [h]
    rw [(t.report_step r).1]
  simp only [kept]
  rw [offered, hit]

theorem State.retire_eq (s : State) (e : Entry) (o : RetireOutcome) :
    s.retire e o =
      (((s.dropEntry e.number).handing e o).1.join
        { occurrences := ((s.dropEntry e.number).hitEffects ((s.dropEntry e.number).lateHits e)).2, records := [] }
        ((s.dropEntry e.number).handing e o).2).1.handOut ((s.dropEntry e.number).handOver e o).2 := rfl

/-- A retired entry leaves the list. -/
theorem State.retire_tracker (s : State) (e : Entry) (o : RetireOutcome) :
    (s.retire e o).tracker = s.tracker.filter fun x => x.number ≠ e.number := by
  rw [s.retire_eq, State.handOut_tracker]
  refine (State.handing_tracker _ e o).trans (List.filter_congr fun x _ => ?_)
  rw [bne, decide_not]
  rfl

theorem filterMap_one {α β : Type} (f : α → Option β) (x : α) : [x].filterMap f = (f x).toList := by
  cases h : f x <;> simp [h]

/-- From a list that may have changed already, an entry is handed over in the sense of the statements. -/
theorem State.retire_handedOver (s : State) (l : List Entry) (e : Entry) (o : RetireOutcome) :
    s.HandedOver (State.retire { s with tracker := l } e o) [e] o [] := by
  have start := State.Handed.nil s o (State.dropEntry { s with tracker := l } e.number).tracker
  obtain ⟨occurrences, records⟩ := start.stands.handOver_offers e o
  rw [State.retire_eq]
  refine ((start.step e).join _ _).handedOver ?_ ?_
  · rw [List.nil_append, filterMap_one]
    exact occurrences
  · rw [List.nil_append, filterMap_one, List.append_nil]
    exact records

/-! ### Entries by place and number -/

theorem State.numberAt_of_place (s : State) {place : BitVec 3} {e : Entry} (h : s.tracker[place.toNat]? = some e) :
    s.numberAt place = e.number := by
  simp [State.numberAt, h]

theorem State.entry?_of_mem {s : State} (hs : s.TrackerInv) {e : Entry} (h : e ∈ s.tracker) :
    s.entry? e.number = some e := by
  cases hf : s.entry? e.number with
  | none => exact absurd (List.find?_eq_none.mp hf e h) (by simp)
  | some x =>
    obtain ⟨hx, hn⟩ := State.entry?_mem hf
    rw [(s.trackerInv_iff.mp hs).eq_of_number hx h hn]

theorem State.entry?_of_place {s : State} (hs : s.TrackerInv) {place : BitVec 3} {e : Entry}
    (h : s.tracker[place.toNat]? = some e) : s.entry? (s.numberAt place) = some e := by
  rw [s.numberAt_of_place h, s.entry?_of_mem hs (List.mem_of_getElem? h)]

/-! ### Retirement DONE -/

theorem Entry.slotIndex_add (e : Entry) {n : Nat} (h : n < 2 ^ 48) : e.slotIndex (e.dataSlot + BitVec.ofNat 48 n) = n := by
  rw [Entry.slotIndex, BitVec.add_comm, BitVec.add_sub_cancel, BitVec.toNat_ofNat, Nat.mod_eq_of_lt h]

theorem State.doneStep_due {s : State} {n : Nat} {e : Entry} (h : s.entry? n = some e) (hd : s.doneDue e = true) :
    s.doneStep n = s.retire e .done := by
  simp [State.doneStep, h, hd]

/-- Settles O34: the retirement that is due, with what a retired entry hands over. -/
theorem entryRetiresDone : Obligations.EntryRetiresDone := by
  unfold Obligations.EntryRetiresDone
  intro s place e hp hs he hphase hnow hbeats
  have due : s.doneDue e = true := by
    have slots : e.slotIndex s.now = e.len.slots := by
      rw [hnow]
      exact e.slotIndex_add (by cases e.len <;> decide)
    simp [State.doneDue, Entry.isStreaming, hphase, slots, hbeats]
  have step := exec_up (c := .retireDone place) (f := fun t => t.doneStep (t.numberAt place)) rfl hp
  rw [State.doneStep_due (State.entry?_of_place hs he) due] at step
  exact ⟨_, step, s.retire_tracker e .done, s.retire_handedOver s.tracker e .done⟩

/-! ### The data slot (R48, R49) -/

/-- The entry of the list with the number of `x` replaced by `y`. -/
def replaced (x y : Entry) (l : List Entry) : List Entry := l.map fun e => if e.number = x.number then y else e

/-- In a whole list a change by number is the replacement of one entry. -/
theorem State.updateEntry_replaced {s : State} (hs : s.TrackerInv) {e : Entry} (h : e ∈ s.tracker)
    (f : Entry → Entry) : s.updateEntry e.number f = { s with tracker := replaced e (f e) s.tracker } := by
  have same : ∀ x ∈ s.tracker, (if x.number == e.number then f x else x) = if x.number = e.number then f e else x := by
    intro x hx
    by_cases hn : x.number = e.number
    · rw [(s.trackerInv_iff.mp hs).eq_of_number hx h hn]
      simp
    · simp [hn]
  unfold State.updateEntry replaced
  rw [List.map_congr_left same]

theorem State.takeBus_replaced {s : State} (hs : s.TrackerInv) {e : Entry} (h : e ∈ s.tracker) (cut : Bool) :
    s.takeBus e.number cut =
      { s with tracker := replaced e { e with phase := .streaming, cutFlag := e.cutFlag || cut } s.tracker } :=
  s.updateEntry_replaced hs h _

/-- A retirement after the bus is taken: the taker streams, the leaver is gone and handed over. -/
theorem State.takeBus_retire {s : State} (hs : s.TrackerInv) {x : Entry} (h : x ∈ s.tracker) (cut : Bool) (e : Entry)
    (o : RetireOutcome) :
    ((s.takeBus x.number cut).retire e o).tracker =
      (replaced x { x with phase := .streaming, cutFlag := x.cutFlag || cut } s.tracker).filter
        (fun y => y.number ≠ e.number) ∧
    s.HandedOver ((s.takeBus x.number cut).retire e o) [e] o [] := by
  rw [s.takeBus_replaced hs h cut]
  exact ⟨State.retire_tracker _ e o, s.retire_handedOver _ e o⟩

theorem State.dataStep_free {s : State} {k : Nat} {n : Entry} (h : s.entry? k = some n) (hd : s.dataDue n = true)
    (hf : s.streamer = none) : s.dataStep k = s.takeBus n.number false := by
  simp [State.dataStep, h, hd, hf]

theorem State.dataStep_held {s : State} {k : Nat} {n e : Entry} (h : s.entry? k = some n) (hd : s.dataDue n = true)
    (he : s.streamer = some e) (hw : s.awaitsBeats e = false) :
    s.dataStep k =
      if e.covers s.now = false then (s.takeBus n.number false).retire e .done
      else if e.dataSlot ≠ s.now then (s.takeBus n.number true).retire e .cut
      else if e.number < n.number then (s.takeBus n.number true).retire e .cut
      else (s.takeBus e.number true).retire n .cut := by
  simp [State.dataStep, h, hd, he, hw]

/-- Settles O33: by whether the bus is free, and by which of the two entries leaves it. -/
theorem dataSlotTakesTheBus : Obligations.DataSlotTakesTheBus := by
  unfold Obligations.DataSlotTakesTheBus
  intro s place n hp hs hn hphase hslot takes without
  have step := exec_up (c := .dataSlot place) (f := fun t => t.dataStep (t.numberAt place)) rfl hp
  have entry := State.entry?_of_place hs hn
  have nmem : n ∈ s.tracker := List.mem_of_getElem? hn
  have due : s.dataDue n = true := by simp [State.dataDue, hphase, hslot]
  refine ⟨fun hf => ?_, fun e he hw => ⟨_, step, fun hc => ?_, fun hc hd => ?_, fun hc hd hl => ?_,
    fun hc hd hl => ?_⟩⟩
  · rw [step, State.dataStep_free entry due hf, s.takeBus_replaced hs nmem, Bool.or_false]
    rfl
  all_goals
    rw [State.dataStep_held entry due he hw]
  · rw [if_pos hc]
    have taken := s.takeBus_retire hs nmem false e .done
    rw [Bool.or_false] at taken
    exact taken
  · rw [if_neg (by simp [hc]), if_pos hd]
    have taken := s.takeBus_retire hs nmem true e .cut
    rw [Bool.or_true] at taken
    exact taken
  · rw [if_neg (by simp [hc]), if_neg (not_not.mpr hd), if_pos hl]
    have taken := s.takeBus_retire hs nmem true e .cut
    rw [Bool.or_true] at taken
    exact taken
  · rw [if_neg (by simp [hc]), if_neg (not_not.mpr hd), if_neg (Nat.lt_asymm hl)]
    have taken := s.takeBus_retire hs (State.streamer_mem he).1 true n .cut
    rw [Bool.or_true] at taken
    exact taken

/-! ### Every entry abandoned (R56 to R58) -/

/-- The occurrences that the retirement of the entries given offers: their late hits and their guard events. -/
def State.retiredOccurrences (s : State) (es : List Entry) : List (List Occurrence) :=
  (es.map fun e => s.seqHits (s.lateOf e)) ++ (es.filterMap s.reportAt).map fun _ => [.guardEvent]

/-- The records that it offers. -/
def State.retiredRecords (s : State) (es : List Entry) : List (List Record) :=
  (es.filterMap s.reportAt).map fun r => [.guard r]

/-- What the entries given have handed over, and what they offer. -/
def State.Abandoned (s : State) (es : List Entry) (p : State × Offers) : Prop :=
  s.Handed .abandoned es p.1 ∧ Merges p.2.occurrences (s.retiredOccurrences es) ∧
  Merges p.2.records (s.retiredRecords es)

theorem State.Abandoned.step {s : State} {es : List Entry} {p : State × Offers} (h : s.Abandoned es p) (e : Entry) :
    s.Abandoned (es ++ [e]) (abandonOne p e) := by
  obtain ⟨handed, occurrences, records⟩ := h
  obtain ⟨ho, hr⟩ := handed.stands.handOver_offers e .abandoned
  refine ⟨((handed.step e).join _ _).join _ _, ?_, ?_⟩
  · refine (occurrences.merged ho _).perm ?_
    unfold State.retiredOccurrences
    rw [List.map_append, List.filterMap_append, List.map_append, filterMap_one]
    simp only [List.map_cons, List.map_nil, List.append_assoc]
    refine List.Perm.append_left _ ?_
    simp only [← List.append_assoc]
    exact List.perm_append_comm.append_right _
  · have both := records.merged hr ((p.1.handOver e .abandoned).1.free + 1)
    unfold State.retiredRecords at both ⊢
    rw [List.filterMap_append, List.map_append, filterMap_one]
    exact both

theorem State.Abandoned.foldl {s : State} {es : List Entry} {p : State × Offers} (h : s.Abandoned es p)
    (l : List Entry) : s.Abandoned (es ++ l) (l.foldl abandonOne p) := by
  induction l generalizing es p with
  | nil => rwa [List.append_nil]
  | cons e l ih =>
    have next := ih (h.step e)
    rwa [List.append_assoc] at next

theorem State.abandonAll_abandoned (s : State) : s.Abandoned s.tracker s.abandonAll := by
  rw [s.abandonAll_eq]
  exact State.Abandoned.foldl (s := s) (es := []) (p := ({ s with tracker := [] }, Offers.none))
    ⟨.nil s .abandoned [], Merges.nil, Merges.nil⟩ s.tracker

/-- With the record of the event beside, every entry is handed over in the sense of the statements. -/
theorem State.abandonWith_handedOver (s : State) (r : Record) :
    s.HandedOver (s.abandonWith { occurrences := [], records := [r] }) s.tracker .abandoned [[r]] := by
  obtain ⟨handed, occurrences, records⟩ := s.abandonAll_abandoned
  rw [s.abandonWith_eq]
  refine (handed.join _ _).handedOver ?_ (records.merged (.single [r]) _)
  have both := occurrences.merged .nil s.abandonAll.1.free
  rw [List.append_nil] at both
  exact both

theorem State.abandonAll_tracker (s : State) : s.abandonAll.1.tracker = [] := by
  have fold (l : List Entry) (p : State × Offers) : (l.foldl abandonOne p).1.tracker = p.1.tracker := by
    induction l generalizing p with
    | nil => rfl
    | cons e l ih => exact (ih _).trans (p.1.handing_tracker e .abandoned)
  rw [s.abandonAll_eq]
  exact fold s.tracker ({ s with tracker := [] }, Offers.none)

theorem State.abandonWith_tracker (s : State) (o : Offers) : (s.abandonWith o).tracker = [] := by
  rw [s.abandonWith_eq, State.handOut_tracker]
  exact s.abandonAll_tracker

/-! ### The memory reset and SHADOW FORGET (R32, R33, R57) -/

/-- A hand-over does not read what a reset of the channel writes. -/
theorem State.HandedOver.of_reset {s t : State} {es : List Entry} {o : RetireOutcome} {rs : List (List Record)}
    (chan : ChanState) (banks : Vector Bank 16) (modes : Modes) (checker : Checker) (mrst : Bool) (turns : Turns)
    (alert : Alert) (ha : ∀ i, i ≠ 9 → alert.latches.getLsbD i = s.alert.latches.getLsbD i)
    (h : State.HandedOver
      { s with
        chan := chan, banks := banks, modes := modes, checker := checker, fwd := { s.fwd with mrst := mrst }
        turns := turns, alert := alert } t es o rs) :
    s.HandedOver t es o rs := by
  obtain ⟨hits, access, waiting, ⟨hit, locked, unable⟩, handed⟩ := h
  refine ⟨hits, access, waiting, ⟨hit.trans ?_, locked.trans ?_, unable.trans ?_⟩,
    handed.congr rfl rfl rfl rfl (ha 7 (by decide)) rfl rfl rfl⟩
  · exact congrArg (· || _) (ha 1 (by decide))
  · exact congrArg (· || _) (ha 2 (by decide))
  · exact congrArg (· || _) (ha 3 (by decide))

/-- What handing over leaves: the channel, its forwarding and its checker. -/
theorem State.abandonWith_fields (s : State) (o : Offers) :
    (s.abandonWith o).chan = s.chan ∧ (s.abandonWith o).banks = s.banks ∧ (s.abandonWith o).modes = s.modes ∧
    (s.abandonWith o).fwd = s.fwd ∧ (s.abandonWith o).checker = s.checker ∧ (s.abandonWith o).now = s.now := by
  obtain ⟨same, -⟩ := s.abandonWith_step o
  exact ⟨by rw [same], by rw [same], by rw [same], by rw [same], by rw [same], by rw [same]⟩

theorem State.abandonWith_latch (s : State) (o : Offers) :
    (s.abandonWith o).alert.latches.getLsbD 9 = s.alert.latches.getLsbD 9 := by
  obtain ⟨handed, -, -⟩ := s.abandonAll_abandoned
  rw [s.abandonWith_eq, State.handOut_latch _ _ (by decide) (by decide)]
  exact handed.stands.latch 9 (by decide) (by decide) (by decide) (by decide)

end Sys2Proof.Machine
end

section
/-! SUPPORT. The resets: MRST, SHADOW FORGET, SOFT RESET and power-on reset. -/
namespace Sys2Proof.Machine

/-! ### The memory reset (R32, R33) -/

/-- The state whose entries a memory reset assertion abandons. -/
def State.resetTaken (s : State) : State :=
  State.setLatch
    { s with
      chan := .resetHeld, banks := Vector.replicate 16 (Bank.blank .closed), modes := Modes.invalid
      checker := s.checker.forgetSpacing, fwd := { s.fwd with mrst := true }
      turns := { s.turns with mrst := true } } .memreset

theorem State.assertReset_eq (s : State) :
    s.assertReset = s.resetTaken.abandonWith { occurrences := [], records := [.channel .memresetOn s.now] } := rfl

theorem State.resetTaken_latch (s : State) (i : Nat) :
    s.resetTaken.alert.latches.getLsbD i = (s.alert.latches.getLsbD i || decide (i = 9)) := by
  change (s.alert.latches ||| Cause.memreset.set).getLsbD i = _
  rw [BitVec.getLsbD_or, Cause.set_getLsbD]
  rfl

theorem State.bank_replicate (s : State) (e : Bank) (b : BankNo) :
    State.bank { s with banks := Vector.replicate 16 e } b = e := by
  simp [State.bank]

theorem State.bank_of_banks {s : State} {e : Bank} (h : s.banks = Vector.replicate 16 e) (b : BankNo) : s.bank b = e := by
  simp [State.bank, h]

theorem exec_memoryResetRelease (s : State) (hp : s.porst = false) (hm : s.fwd.mrst = true)
    (ht : s.turns.mrst = false) : exec .memoryResetRelease s = .next s.releaseReset := by
  rw [exec_up (c := .memoryResetRelease)
    (f := fun t => if t.fwd.mrst = false ∨ t.turns.mrst then t else t.releaseReset) rfl hp]
  simp [hm, ht]

/-- Settles O24: every entry is handed over with the record of the assertion beside; the release offers its record. -/
theorem memoryResetActs : Obligations.MemoryResetActs := by
  unfold Obligations.MemoryResetActs
  intro s hp ht
  refine ⟨fun hm => ⟨_, exec_memoryResetAssertion s hp hm ht, ?_⟩, fun hm hc =>
    ⟨_, exec_memoryResetRelease s hp hm ht, ?_⟩⟩
  · rw [s.assertReset_eq]
    obtain ⟨chan, banks, modes, fwd, checker, -⟩ :=
      s.resetTaken.abandonWith_fields { occurrences := [], records := [.channel .memresetOn s.now] }
    have latch := s.resetTaken.abandonWith_latch { occurrences := [], records := [.channel .memresetOn s.now] }
    refine ⟨chan, fwd, State.bank_of_banks banks, modes, State.abandonWith_tracker _ _, ?_, ?_, ?_, ?_, ?_, ?_, ?_⟩
    · rw [checker]; rfl
    · rw [checker]; rfl
    · rw [checker]; rfl
    · rw [checker]; rfl
    · rw [checker]; rfl
    · rw [latch, s.resetTaken_latch]
      simp
    · refine State.HandedOver.of_reset .resetHeld _ _ s.checker.forgetSpacing true _ s.resetTaken.alert (fun i hi => ?_)
        (s.resetTaken.abandonWith_handedOver (.channel .memresetOn s.now))
      rw [s.resetTaken_latch, decide_eq_false hi, Bool.or_false]
  · have held : s.chan = .resetHeld := hc.1.mpr hm
    have queued := State.offerEvent_recordsQueued
      { s with
        chan := if s.chan = .resetHeld then .live else s.chan, fwd := { s.fwd with mrst := false }
        turns := { s.turns with mrst := true } } (.channel .memresetOff s.now)
    have seq := State.offerEvent_seq
      { s with
        chan := if s.chan = .resetHeld then .live else s.chan, fwd := { s.fwd with mrst := false }
        turns := { s.turns with mrst := true } } (.channel .memresetOff s.now)
    have step := (State.offerEvent_step
      { s with
        chan := if s.chan = .resetHeld then .live else s.chan, fwd := { s.fwd with mrst := false }
        turns := { s.turns with mrst := true } } (.channel .memresetOff s.now)).1
    unfold State.releaseReset
    simp only
    generalize State.offerEvent _ _ = t at *
    refine ⟨?_, by rw [step], by rw [step], by rw [step], ⟨by rw [step], by rw [step], by rw [step]⟩, by rw [step], seq,
      queued⟩
    rw [step]
    exact if_pos held

/-! ### SHADOW FORGET and SOFT RESET (R57, R59) -/

/-- The state whose entries SHADOW FORGET abandons. -/
def State.forgotten (s : State) : State :=
  { s with
    banks := Vector.replicate 16 (Bank.blank .unknown), modes := Modes.invalid
    checker := s.checker.forgetSpacing }

theorem State.forgetShadow_eq (s : State) :
    s.forgetShadow = s.forgotten.abandonWith { occurrences := [], records := [.channel .forget s.now] } := rfl

/-- Every event of a slot and every request but the slot's own turn leaves the notes that a slot keeps. -/
theorem State.request_notSlot (s : State) (c : Instr) : s.Changes False (· ≠ .slot) (s.request c) := by
  by_cases hc : c = .slotAdvance
  · subst hc
    exact .refl s
  · refine s.request_changes c (fun e he => ?_) False.elim
    rintro rfl
    cases c with
    | slotAdvance => exact hc rfl
    | _ => cases he

theorem State.closeSlot_notSlot (s : State) : s.Changes False (· ≠ .slot) s.closeSlot := by
  have tracks : Tracks (· ≠ Effect.slot) := ⟨⟨nofun, nofun, nofun⟩, nofun, nofun, nofun⟩
  have served : s.Changes False (· ≠ .slot) s.lastEvents := by
    refine (s.owedEvents_changes (fun e he => ?_) False.elim).trans ?_
    · rintro rfl
      cases he
    · unfold State.lastEvents State.serveWaiting
      split
      · exact .refl _
      · exact State.request_notSlot _ _
  exact (served.trans (State.takeEdges_changes _ tracks.toHands tracks.cues)).trans
    (State.takeWires_changes _ nofun nofun)

/-- With nothing in the list and nothing recorded, a memory reset assertion abandons and records nothing. -/
theorem State.assertReset_idle (s : State) (ht : s.tracker = []) (hr : s.capture.running = false) :
    s.assertReset = { s.resetTaken with free := s.free + 2 } := by
  have abandoned : s.resetTaken.abandonAll = (s.resetTaken, Offers.none) := by
    rw [State.abandonAll_eq, show s.resetTaken.tracker = [] from ht]
    exact congrArg (fun l => (({ s.resetTaken with tracker := l } : State), Offers.none)) ht.symm
  rw [s.assertReset_eq, State.abandonWith_eq, abandoned]
  exact State.offerEvent_refused { s.resetTaken with free := s.free + 2 } _ (.inl hr)

theorem State.takeWires_fields (s : State) :
    s.takeWires = { s with port := (s.wires.headD []).foldl Port.wire s.port, wires := s.wires.tail } := rfl

/-- The state that a release of PORST_N leaves. -/
theorem exec_powerOnResetRelease (s : State) (x : Sampled) (hp : s.porst = true) :
    exec (.powerOnResetRelease x) s = .next
      (if x.mrst then
        { (s.powered false x.mrst x.pins x.select).takeWires.resetTaken with free := s.free + 2 }
      else (s.powered false x.mrst x.pins x.select).takeWires) := by
  change execPowerOnResetRelease x s = _
  unfold execPowerOnResetRelease
  rw [if_pos hp]
  simp only
  rw [State.assertReset_idle _ rfl rfl]
  rfl

theorem Instr.powersOn_iff {c : Instr} :
    Instr.powersOn c = true ↔ c = .powerOnResetAssert ∨ ∃ x, c = .powerOnResetRelease x := by
  refine ⟨fun h => ?_, ?_⟩
  · by_contra hn
    obtain ⟨ha, hr⟩ := not_or.mp hn
    exact Bool.false_ne_true ((Instr.powersOn_eq_false ha fun x hx => hr ⟨x, hx⟩).symm.trans h)
  · rintro (rfl | ⟨x, rfl⟩) <;> rfl

theorem exec_seqDefault (s : State) (c : Instr) (hs : s.turns.softReset = true) (hd : s.seq = Sequencer.default) :
    ∃ t, exec c s = .next t ∧ t.seq = Sequencer.default := by
  cases hc : Instr.powersOn c with
  | false =>
    by_cases ha : c = .slotAdvance
    · subst ha
      have closed := s.closeSlot_notSlot.sequencerDefault (fun h => h rfl) hs hd
      have step := exec_slotAdvance s
      generalize s.closeSlot = u at closed step
      cases hp : s.porst with
      | false => exact ⟨_, step.trans (congrArg Host.Outcome.next (if_neg (by simp [hp]))), closed⟩
      | true => exact ⟨_, step.trans (congrArg Host.Outcome.next (if_pos hp)), hd⟩
    · obtain ⟨t, step, changes⟩ := exec_changes False c s False.elim
      refine ⟨t, step, changes.sequencerDefault (State.not_reach ha hc ?_) hs hd⟩
      cases c with
      | slotAdvance => exact absurd rfl ha
      | _ => rfl
  | true =>
    rcases Instr.powersOn_iff.mp hc with rfl | ⟨x, rfl⟩
    · cases hp : s.porst with
      | false => exact ⟨_, exec_powerOnResetAssert s hp, rfl⟩
      | true => exact ⟨s, congrArg Host.Outcome.next (if_pos hp), hd⟩
    · cases hp : s.porst with
      | false => exact ⟨s, congrArg Host.Outcome.next (if_neg (by simp [hp])), hd⟩
      | true => exact ⟨_, exec_powerOnResetRelease s x hp, by split <;> rfl⟩

/-- Settles O53: SHADOW FORGET hands every entry over; SOFT RESET leaves its values, the sequencer's to the slot's end. -/
theorem forgetAndSoftResetAct : Obligations.ForgetAndSoftResetAct := by
  unfold Obligations.ForgetAndSoftResetAct
  refine ⟨fun s hs => ⟨_, exec_request rfl hs, ?_⟩, fun s hs => ⟨_, exec_request rfl hs, ?_⟩, exec_seqDefault⟩
  · rw [s.forgetShadow_eq]
    obtain ⟨chan, banks, modes, fwd, checker, now⟩ :=
      s.forgotten.abandonWith_fields { occurrences := [], records := [.channel .forget s.now] }
    have handed : s.HandedOver _ s.tracker .abandoned [[.channel .forget s.now]] :=
      State.HandedOver.of_reset s.chan _ _ s.checker.forgetSpacing s.fwd.mrst s.turns s.alert (fun _ _ => rfl)
        (s.forgotten.abandonWith_handedOver (.channel .forget s.now))
    exact ⟨chan, State.bank_of_banks banks, modes, State.abandonWith_tracker _ _, fwd, now, checker, handed⟩
  · refine ⟨rfl, rfl, State.bank_of_banks rfl, rfl, rfl, rfl, rfl, rfl, rfl, fun k => ?_, rfl, rfl, ?_, fun p => ?_, rfl, rfl,
      rfl⟩
    · change (Vector.ofFn fun k : Fin 16 => s.windows[k].softReset)[k] = _
      simp [Window.softReset]
    · change ({ Alert.default with latches := s.alert.latches &&& Cause.guardLocked.set } : Alert) = _
      rfl
    · change (Vector.ofFn fun p : Fin 4 => s.cues[p].softReset)[p] = _
      simp [Cue.softReset, Cue.default]

end Sys2Proof.Machine
end

section
/-! SUPPORT. A frame of the service port from its first byte on, and power-on reset. -/
namespace Sys2Proof.Machine

/-! ### A request shifted in (R182 to R184) -/

/-- While a request is not complete its bytes are kept. -/
theorem Port.run_incomplete (p : Port) (pre l : List Byte) (hf : p.frame = .request pre) (hb : p.bits = [])
    (hl : ∀ k, 0 < k → k ≤ l.length → requestComplete (pre ++ l.take k) = false) :
    p.run (l.flatMap wireOfByte) = { p with frame := .request (pre ++ l) } := by
  induction l generalizing p pre with
  | nil =>
    rw [List.append_nil, ← hf]
    rfl
  | cons b l ih =>
    have first : requestComplete (pre ++ [b]) = false := hl 1 Nat.one_pos (by simp)
    have taken : p.takeByte b = { p with frame := .request (pre ++ [b]) } := by
      simp [Port.takeByte, hf, first]
    rw [List.flatMap_cons, Port.run_append, Port.run_wireOfByte p b (by rw [hf]; rfl) hb, taken,
      ih { p with frame := .request (pre ++ [b]) } (pre ++ [b]) rfl hb fun k _ hk => ?_, List.append_assoc]
    · rfl
    · rw [List.append_assoc]
      exact hl (k + 1) k.succ_pos (Nat.succ_le_succ hk)

/-- A frame whose bytes complete a request with its last one. -/
theorem Port.run_request (p : Port) (l : List Byte) (hf : p.frame = .idle) (hc : requestComplete l = true)
    (hl : ∀ k, k < l.length → requestComplete (l.take k) = false) :
    p.run (.select :: l.flatMap wireOfByte) =
      Port.complete { p with frame := .request l.dropLast, bits := [], reply := .filler } l := by
  have selected : p.wire .select = { p with frame := .request [], bits := [], reply := .filler } := by
    simp [Port.wire, Port.select, hf]
  rw [Port.run_cons, selected]
  rcases List.eq_nil_or_concat l with rfl | ⟨pre, b, rfl⟩
  · cases hc
  · rw [List.concat_eq_append] at hc hl ⊢
    have short (k : Nat) (_ : 0 < k) (hk : k ≤ pre.length) : requestComplete ([] ++ pre.take k) = false := by
      have at_k := hl k (by simpa using Nat.lt_succ_of_le hk)
      rwa [List.take_append_of_le_length hk] at at_k
    rw [List.flatMap_append, Port.run_append, Port.run_incomplete _ [] pre rfl rfl short, List.nil_append,
      List.dropLast_concat, List.flatMap_singleton, Port.run_wireOfByte _ b rfl rfl]
    simp [Port.takeByte, hc]

/-! ### Power-on reset (R13, R34) -/

/-- What a released port makes of one event of its pins. -/
theorem Port.released_wire (select : Bool) (w : Wire) :
    (Port.released select).wire w =
      if w = .deselect ∨ w = .select ∧ select = false then
        { Port.released select with frame := if w = .deselect then .idle else .request [] }
      else Port.released select := by
  cases w with
  | select => cases select <;> rfl
  | deselect => cases select <;> rfl
  | clock sdi => cases select <;> rfl

theorem Port.released_sdo (select : Bool) : (Port.released select).sdoByte = none := by
  cases select <;> rfl

/-- A request whose frame began with the release waits. -/
theorem Port.released_request (l : List Byte) (hc : requestComplete l = true)
    (hl : ∀ k, k < l.length → requestComplete (l.take k) = false) :
    (Port.released false).run (.select :: l.flatMap wireOfByte) =
      { frame := .turnaround, bits := [], waiting := requestOf l, reply := .due } := by
  rw [Port.run_request _ l rfl hc hl]
  rfl

/-- While PORST_N is asserted no command is sampled. -/
theorem State.arrive_held (s : State) (c : Cmd) (h : s.porst = true) : s.arrive c = s :=
  if_pos (.inl h)

theorem exec_held (c : Instr) (s : State) (h : s.porst = true) (hr : ∀ x, c ≠ .powerOnResetRelease x) :
    exec c s = .next (if c = .slotAdvance then { s with wires := s.wires.tail } else s) := by
  by_cases ha : c = .slotAdvance
  · rw [if_pos ha, ha, exec_slotAdvance, if_pos h]
  · rw [if_neg ha]
    cases c with
    | openBank b r => exact congrArg Host.Outcome.next (s.arrive_held _ h)
    | readBurst b col ac => exact congrArg Host.Outcome.next (s.arrive_held _ h)
    | writeBurst b col ac => exact congrArg Host.Outcome.next (s.arrive_held _ h)
    | closeBank b => exact congrArg Host.Outcome.next (s.arrive_held _ h)
    | closeAll => exact congrArg Host.Outcome.next (s.arrive_held _ h)
    | refresh => exact congrArg Host.Outcome.next (s.arrive_held _ h)
    | modeLoad i v => exact congrArg Host.Outcome.next (s.arrive_held _ h)
    | sleepEnter => exact congrArg Host.Outcome.next (s.arrive_held _ h)
    | sleepExit => exact congrArg Host.Outcome.next (s.arrive_held _ h)
    | undefinedEncoding code => exact congrArg Host.Outcome.next (if_pos (.inl h))
    | powerOnResetAssert => exact congrArg Host.Outcome.next (if_pos h)
    | powerOnResetRelease x => exact absurd rfl (hr x)
    | slotAdvance => exact absurd rfl ha
    | writeItem g i v =>
      change execWriteItem g i v s = _
      unfold execWriteItem
      split <;> exact s.whileUp_held _ h
    | _ => exact congrArg Host.Outcome.next (if_pos h)

theorem exec_powerOnResetRelease_live (s : State) (pins : BitVec 4) (select : Bool) (hp : s.porst = true) :
    exec (.powerOnResetRelease { mrst := false, pins := pins, select := select }) s =
      .next (s.powered false false pins select).takeWires := by
  rw [exec_powerOnResetRelease s _ hp]
  rfl

theorem exec_powerOnResetRelease_held (s : State) (pins : BitVec 4) (select : Bool) (hp : s.porst = true) :
    exec (.powerOnResetRelease { mrst := true, pins := pins, select := select }) s =
      .next { (s.powered false true pins select).takeWires.resetTaken with free := s.free + 2 } := by
  rw [exec_powerOnResetRelease s _ hp]
  rfl

/-- The port and the pins after a release, whatever else the first slot finds. -/
theorem State.released_port {s t : State} {select : Bool} (hp : t.porst = false)
    (port : t.port = (s.wires.headD []).foldl Port.wire (Port.released select)) :
    (t.port = Port.released select → t.sdo = none) ∧
    ∀ l : List Byte, select = false → s.wires.headD [] = .select :: l.flatMap wireOfByte →
      requestComplete l = true → (∀ k, k < l.length → requestComplete (l.take k) = false) →
      t.port = { frame := .turnaround, bits := [], waiting := requestOf l, reply := .due } ∧
      (requestOf l).isSome = true := by
  refine ⟨fun h => ?_, fun l hs hw hc hl => ⟨?_, requestOf_isSome hc⟩⟩
  · simp [State.sdo, hp, h, Port.released_sdo]
  · rw [port, hw, hs]
    exact Port.released_request l hc hl

/-- Settles O25: the power-on values, the first slot with MRST released and asserted, and what the port takes. -/
theorem powerOnResetActs : Obligations.PowerOnResetActs := by
  unfold Obligations.PowerOnResetActs
  refine ⟨⟨fun s hp => ⟨_, exec_powerOnResetAssert s hp, ?_⟩, fun s mrst pins select hp => ?_⟩, exec_held⟩
  · exact ⟨rfl, rfl, rfl, rfl, rfl, State.bank_of_banks rfl, rfl, rfl, s.powered_window, rfl, rfl, rfl, rfl, rfl,
      fun p => by simp [State.powered, State.powerOn], fun p => if_pos (.inl rfl), rfl, rfl, if_pos rfl, rfl, rfl, rfl, rfl,
      rfl, rfl⟩
  · have cues (p : Fin 4) :
        (s.powered false mrst pins select).cues[p] = Cue.default (pins.getLsbD p.val) := by
      simp [State.powered, State.powerOn]
    cases mrst with
    | false =>
      refine ⟨_, exec_powerOnResetRelease_live s pins select hp, rfl, rfl, rfl, rfl, rfl, rfl, cues, ?_, fun _ =>
        ⟨rfl, State.bank_of_banks rfl, rfl⟩, nofun⟩
      obtain ⟨sdo, request⟩ := State.released_port (s := s) (select := select)
        (t := (s.powered false false pins select).takeWires) rfl rfl
      exact ⟨rfl, rfl, sdo, Port.released_wire select, request⟩
    | true =>
      refine ⟨_, exec_powerOnResetRelease_held s pins select hp, rfl, rfl, rfl, rfl, rfl, rfl, cues, ?_, nofun, fun _ =>
        ⟨rfl, State.bank_of_banks rfl, BitVec.zero_or⟩⟩
      obtain ⟨sdo, request⟩ := State.released_port (s := s) (select := select)
        (t := { (s.powered false true pins select).takeWires.resetTaken with free := s.free + 2 }) rfl rfl
      exact ⟨rfl, rfl, sdo, Port.released_wire select, request⟩

end Sys2Proof.Machine
end

section
/-! SUPPORT. Addresses, windows and data conditions, each in the words of the statements. -/
namespace Sys2Proof.Machine

/-! ### Data conditions (R88) -/

theorem CondWidth.bits_le (w : CondWidth) : w.bits ≤ 64 := by
  cases w <;> decide

theorem CondWidth.mask_getLsbD (w : CondWidth) (i : Nat) : w.mask.getLsbD i = decide (i < w.bits) := by
  have h := w.bits_le
  rw [CondWidth.mask, getLsbD_setOf, Bool.eq_iff_iff]
  simp only [Bool.and_eq_true, decide_eq_true_eq]
  omega

/-- Two values agree in the selected lanes exactly when their selected bits do. -/
theorem CondWidth.masked_eq_iff (w : CondWidth) (x y : BitVec 64) :
    x &&& w.mask = y &&& w.mask ↔ ∀ i, i < w.bits → x.getLsbD i = y.getLsbD i := by
  refine ⟨fun h i hi => ?_, fun h => BitVec.eq_of_getLsbD_eq fun i _ => ?_⟩
  · have at_i := congrArg (BitVec.getLsbD · i) h
    simpa only [BitVec.getLsbD_and, w.mask_getLsbD, decide_eq_true hi, Bool.and_true] using at_i
  · rw [BitVec.getLsbD_and, BitVec.getLsbD_and, w.mask_getLsbD]
    by_cases hi : i < w.bits
    · rw [h i hi]
    · rw [decide_eq_false hi, Bool.and_false, Bool.and_false]

theorem CondWidth.masked_eq_zero_iff (w : CondWidth) (x : BitVec 64) :
    x &&& w.mask = 0 ↔ ∀ i, i < w.bits → x.getLsbD i = false := by
  have h := w.masked_eq_iff x 0
  rw [show (0 : BitVec 64) &&& w.mask = 0 from BitVec.zero_and] at h
  simpa only [show ∀ i, (0 : BitVec 64).getLsbD i = false from fun i => BitVec.getLsbD_zero] using h

theorem CondWidth.masked_eq_mask_iff (w : CondWidth) (x : BitVec 64) :
    x &&& w.mask = w.mask ↔ ∀ i, i < w.bits → x.getLsbD i = true := by
  have h := w.masked_eq_iff x (BitVec.allOnes 64)
  rw [BitVec.allOnes_and] at h
  rw [h]
  refine forall₂_congr fun i hi => ?_
  rw [BitVec.getLsbD_allOnes, decide_eq_true (hi.trans_le w.bits_le)]

theorem CondWidth.masked_and_eq_iff (w : CondWidth) (x y mask : BitVec 64) :
    (x &&& w.mask) &&& mask = y &&& mask &&& w.mask ↔
      ∀ i, i < w.bits → mask.getLsbD i = true → x.getLsbD i = y.getLsbD i := by
  rw [BitVec.and_assoc, BitVec.and_comm w.mask, ← BitVec.and_assoc, w.masked_eq_iff]
  refine forall₂_congr fun i _ => ?_
  rw [BitVec.getLsbD_and, BitVec.getLsbD_and]
  cases mask.getLsbD i <;> simp

/-- Settles O38: each kind by the selected bits. -/
theorem dataConditionsAreTested : Obligations.DataConditionsAreTested := by
  unfold Obligations.DataConditionsAreTested
  intro w k value mask data n
  have width : n = w.bits := by cases w <;> rfl
  rw [width]
  cases k with
  | any => exact ⟨fun _ => trivial, fun _ => rfl⟩
  | zero => exact beq_iff_eq.trans (w.masked_eq_zero_iff data)
  | nonzero =>
    refine bne_iff_ne.trans ((not_congr (w.masked_eq_zero_iff data)).trans ?_)
    simp
  | topSet => exact Iff.rfl
  | topClear => exact Bool.not_eq_true' _ ▸ Iff.rfl
  | allOnes => exact beq_iff_eq.trans (w.masked_eq_mask_iff data)
  | notAllOnes =>
    refine bne_iff_ne.trans ((not_congr (w.masked_eq_mask_iff data)).trans ?_)
    simp
  | maskedEqual => exact beq_iff_eq.trans (w.masked_and_eq_iff data value mask)

/-! ### Windows over a burst (R94, R96) -/

theorem WindowFields.inRange_iff (w : WindowFields) (a : Nat) :
    w.inRange a = true ↔ w.low.toNat ≤ a ∧ a ≤ w.high.toNat := by
  simp [WindowFields.inRange]

theorem WindowFields.meetsBeat_iff (w : WindowFields) (g : Burst) (i : Nat) :
    w.meetsBeat g i = true ↔ ∃ n, n < 8 ∧ w.low.toNat ≤ g.address i n ∧ g.address i n ≤ w.high.toNat := by
  simp [WindowFields.meetsBeat, w.inRange_iff]

theorem WindowKinds.includes_iff (k : WindowKinds) (kind : AccessKind) :
    k.includes kind = true ↔
      k = .both ∨
        k = (match kind with
          | .read => .read
          | .write => .write) := by
  cases k <;> cases kind <;> simp [WindowKinds.includes]

theorem candidatesOf_getLsbD (windows : Vector Window 16) (kind : AccessKind) (g : Option Burst) (k : Fin 16) :
    (candidatesOf windows kind g).getLsbD k.val = windows[k].fields.selects kind g := by
  rw [candidatesOf, getLsbD_setOf_fin]
  simp

theorem WindowFields.selects_iff (w : WindowFields) (kind : AccessKind) (g : Option Burst) :
    w.selects kind g = true ↔
      w.enable = true ∧
      (w.kinds = .both ∨
        w.kinds = (match kind with
          | .read => .read
          | .write => .write)) ∧
      ∃ b i n, g = some b ∧ i < b.len.beats ∧ n < 8 ∧ w.low.toNat ≤ b.address i n ∧ b.address i n ≤ w.high.toNat := by
  rw [WindowFields.selects.eq_def, Bool.and_eq_true, Bool.and_eq_true, w.kinds.includes_iff, and_assoc]
  refine and_congr Iff.rfl (and_congr Iff.rfl ?_)
  cases g with
  | none => simp
  | some g => simp [w.meetsBeat_iff]

/-! ### Guard masks (R105) -/

theorem WindowFields.activeGuard_iff (w : WindowFields) :
    w.activeGuard = true ↔ w.enable = true ∧ w.actions.guard = true ∧ w.kinds ≠ .read := by
  rw [WindowFields.activeGuard, Bool.and_eq_true, Bool.and_eq_true, and_assoc]
  cases w.kinds <;> simp [WindowKinds.includes]

theorem WindowFields.guardLanes_iff (w : WindowFields) (g : Burst) (i n : Nat) (hn : n < 8) :
    (w.guardLanes g i).getLsbD n = true ↔ w.GivesLane g i n := by
  unfold WindowFields.guardLanes WindowFields.GivesLane
  by_cases ha : w.activeGuard = true
  · obtain ⟨he, hg, hk⟩ := w.activeGuard_iff.mp ha
    rw [if_pos ha, getLsbD_setOf, decide_eq_true hn, Bool.true_and, Bool.and_eq_true, w.inRange_iff]
    exact ⟨fun h => ⟨he, hg, hk, h⟩, fun ⟨_, _, _, h⟩ => h⟩
  · have none := mt w.activeGuard_iff.mpr ha
    simp only [ha, Bool.false_eq_true, if_false]
    refine ⟨fun h => absurd h (by simp), fun ⟨he, hg, hk, _⟩ => absurd ⟨he, hg, hk⟩ none⟩

theorem foldl_lanes_getLsbD (l : List Window) (p : Window → Bool) (f : Window → LaneSet) (acc : LaneSet) (n : Nat) :
    (l.foldl (fun acc w => if p w then acc ||| f w else acc) acc).getLsbD n = true ↔
      acc.getLsbD n = true ∨ ∃ w ∈ l, p w = true ∧ (f w).getLsbD n = true := by
  induction l generalizing acc with
  | nil => simp
  | cons w l ih =>
    rw [List.foldl_cons, ih]
    by_cases hp : p w = true <;> simp [hp, or_assoc]

theorem Window.exists_mem_toList (windows : Vector Window 16) (p : Window → Prop) :
    (∃ w ∈ windows.toList, p w) ↔ ∃ k : Fin 16, p windows[k] := by
  refine ⟨fun ⟨w, hw, h⟩ => ?_, fun ⟨k, h⟩ => ⟨_, Vector.mem_toList_iff.mpr (Vector.getElem_mem k.isLt), h⟩⟩
  obtain ⟨i, hi, rfl⟩ := Vector.getElem_of_mem (Vector.mem_toList_iff.mp hw)
  exact ⟨⟨i, hi⟩, h⟩

theorem guardMask_iff (windows : Vector Window 16) (p : Window → Bool) (g : Burst) (i n : Nat) (hn : n < 8) :
    (guardMask windows p g i).getLsbD n = true ↔
      ∃ k : Fin 16, p windows[k] = true ∧ windows[k].fields.GivesLane g i n := by
  rw [guardMask, foldl_lanes_getLsbD, Window.exists_mem_toList]
  simp [← WindowFields.guardLanes_iff _ g i n hn]

theorem getD_map_range {α : Type} (f : Nat → α) (d : α) {n i : Nat} (h : i < n) :
    ((List.range n).map f).getD i d = f i := by
  simp [List.getD, h]

theorem guardMasks_iff (windows : Vector Window 16) (g : Burst) (i n : Nat) (hi : i < g.len.beats) (hn : n < 8) :
    ((guardMasks windows g).getD i 0).getLsbD n = true ↔ ∃ k : Fin 16, windows[k].fields.GivesLane g i n := by
  rw [guardMasks, getD_map_range _ _ hi, guardMask_iff _ _ _ _ _ hn]
  simp

theorem guardMasks_length (windows : Vector Window 16) (g : Burst) : (guardMasks windows g).length = g.len.beats := by
  simp [guardMasks]

theorem lockedShares_iff (windows : Vector Window 16) (g : Burst) (i n : Nat) (hi : i < g.len.beats) (hn : n < 8) :
    ((lockedShares windows g).getD i 0).getLsbD n = true ↔
      ∃ k : Fin 16, windows[k].locked = true ∧ windows[k].fields.GivesLane g i n := by
  rw [lockedShares, getD_map_range _ _ hi, guardMask_iff _ _ _ _ _ hn]

theorem lanes_ne_zero_iff (m : LaneSet) : (m != 0) = true ↔ ∃ n, n < 8 ∧ m.getLsbD n = true := by
  rw [bne_iff_ne]
  refine ⟨fun h => ?_, fun ⟨n, _, hn⟩ h0 => ?_⟩
  · by_contra none
    refine h (BitVec.eq_of_getLsbD_eq fun i hi => ?_)
    rw [show (0 : LaneSet).getLsbD i = false from BitVec.getLsbD_zero]
    exact Bool.eq_false_iff.mpr fun hb => none ⟨i, hi, hb⟩
  · rw [h0] at hn
    exact Bool.false_ne_true (BitVec.getLsbD_zero.symm.trans hn)

theorem contributors_iff (windows : Vector Window 16) (g : Burst) (k : Fin 16) :
    (contributors windows g).getLsbD k.val = true ↔
      ∃ i n, i < g.len.beats ∧ n < 8 ∧ windows[k].fields.GivesLane g i n := by
  rw [contributors, getLsbD_setOf_fin]
  simp only [Fin.is_lt, Vector.getElem?_eq_getElem, List.any_eq_true, List.mem_range, lanes_ne_zero_iff]
  refine exists_congr fun i => ⟨fun ⟨hi, n, hn, h⟩ => ⟨n, hi, hn, ?_⟩, fun ⟨n, hi, hn, h⟩ => ⟨hi, n, hn, ?_⟩⟩
  · exact (WindowFields.guardLanes_iff _ g i n hn).mp h
  · exact (WindowFields.guardLanes_iff _ g i n hn).mpr h

theorem State.anyActiveGuard_iff (s : State) :
    s.anyActiveGuard = true ↔ ∃ k : Fin 16, s.windows[k].fields.activeGuard = true := by
  rw [State.anyActiveGuard, List.any_eq_true, Window.exists_mem_toList]

theorem satisfiedBy_iff (windows : Vector Window 16) (candidates : WindowSet) (g : Option Burst) (i : Nat)
    (data : BeatData) (k : Fin 16) :
    (satisfiedBy windows candidates g i data).getLsbD k.val = true ↔
      candidates.getLsbD k.val = true ∧
      (∃ b n, g = some b ∧ n < 8 ∧
        windows[k].fields.low.toNat ≤ b.address i n ∧ b.address i n ≤ windows[k].fields.high.toNat) ∧
      ∃ width kind, windows[k].fields.cond = some (width, kind) ∧
        condHolds width kind windows[k].fields.condValue windows[k].fields.condMask data = true := by
  cases g with
  | none => simp [satisfiedBy]
  | some g =>
    rw [satisfiedBy, getLsbD_setOf_fin]
    simp only [Fin.is_lt, Vector.getElem?_eq_getElem, Bool.and_eq_true, WindowFields.meetsBeat_iff]
    refine and_congr Iff.rfl (and_congr ⟨fun ⟨n, h⟩ => ⟨g, n, rfl, h⟩, fun ⟨_, n, e, h⟩ => ?_⟩ ?_)
    · cases e
      exact ⟨n, h⟩
    · change windows[k].fields.condSatisfied data = true ↔ _
      unfold WindowFields.condSatisfied
      rcases windows[k].fields.cond with - | ⟨width, kind⟩ <;> simp

/-- Settles O37, from what each of the sets has for members. -/
theorem windowsSelectAndGuard : Obligations.WindowsSelectAndGuard := by
  unfold Obligations.WindowsSelectAndGuard
  refine ⟨fun windows kind g k => ⟨?_, ?_⟩, fun windows g => ⟨guardMasks_length windows g, guardMasks_iff windows g⟩,
    satisfiedBy_iff⟩
  · rw [candidatesOf_getLsbD]
    exact WindowFields.selects_iff _ kind g
  · rw [conditional_getLsbD, Option.isSome_iff_ne_none]

/-! ### Columns and flat addresses (R7, R15, R16) -/

theorem mul_add_inj {m a a' x x' : Nat} (hx : x < m) (hx' : x' < m) (h : a * m + x = a' * m + x') :
    a = a' ∧ x = x' := by
  have div : a = a' := by
    have at_div := congrArg (· / m) h
    have pos : 0 < m := Nat.zero_lt_of_lt hx
    simpa only [Nat.mul_comm _ m, Nat.mul_add_div pos, Nat.div_eq_of_lt hx, Nat.div_eq_of_lt hx', Nat.add_zero] using at_div
  subst div
  exact ⟨rfl, Nat.add_left_cancel h⟩

theorem mul_add_lt {m k a x : Nat} (ha : a < k) (hx : x < m) : a * m + x < k * m :=
  calc
    a * m + x < a * m + m := Nat.add_lt_add_left hx _
    _ = (a + 1) * m := (Nat.succ_mul a m).symm
    _ ≤ k * m := Nat.mul_le_mul_right m ha

/-- The place of beat `i` within its block of columns, from the place of the start column (R7). -/
def BeatOrder.place (o : BeatOrder) (n start i : Nat) : Nat :=
  match o with
  | .linear => (start + i) % n
  | .exchange => start ^^^ i

theorem beatColumn_eq (m : AddrMap) (l : BurstLen) (o : BeatOrder) (col : Col) (i : Nat) :
    beatColumn m l o col i =
      col.toNat % 2 ^ m.colBits / l.beats * l.beats +
        o.place l.beats (col.toNat % 2 ^ m.colBits % l.beats) i := by
  have base (c : Nat) : c - c % l.beats = c / l.beats * l.beats := by
    rw [Nat.sub_eq_iff_eq_add (Nat.mod_le _ _), Nat.mul_comm, Nat.div_add_mod]
  unfold beatColumn BeatOrder.place
  cases o <;> simp only [base]

theorem BurstLen.beats_eq_pow (l : BurstLen) : l.beats = 2 ^ (l.beats.log2) := by
  cases l <;> rfl

theorem xor_lt_beats (l : BurstLen) {a b : Nat} (ha : a < l.beats) (hb : b < l.beats) : a ^^^ b < l.beats := by
  rw [l.beats_eq_pow] at *
  exact Nat.xor_lt_two_pow ha hb

theorem BeatOrder.place_lt (o : BeatOrder) (l : BurstLen) {start i : Nat} (hs : start < l.beats) (hi : i < l.beats) :
    o.place l.beats start i < l.beats := by
  cases o with
  | linear => exact Nat.mod_lt _ (Nat.zero_lt_of_lt hi)
  | exchange => exact xor_lt_beats l hs hi

/-- Each place of the block belongs to exactly one beat. -/
theorem BeatOrder.place_bijective (o : BeatOrder) (l : BurstLen) {start y : Nat} (hs : start < l.beats)
    (hy : y < l.beats) :
    ∃ i, i < l.beats ∧ o.place l.beats start i = y ∧ ∀ j, j < l.beats → o.place l.beats start j = y → j = i := by
  cases o with
  | linear =>
    have pos : 0 < l.beats := Nat.zero_lt_of_lt hs
    refine ⟨(y + (l.beats - start)) % l.beats, Nat.mod_lt _ pos, ?_, fun j hj h => ?_⟩
    · change (start + (y + (l.beats - start)) % l.beats) % l.beats = y
      rw [Nat.add_mod_mod, show start + (y + (l.beats - start)) = y + l.beats by omega, Nat.add_mod_right,
        Nat.mod_eq_of_lt hy]
    · change (start + j) % l.beats = y at h
      rw [← h, Nat.mod_add_mod, show start + j + (l.beats - start) = j + l.beats by omega, Nat.add_mod_right,
        Nat.mod_eq_of_lt hj]
  | exchange =>
    refine ⟨start ^^^ y, xor_lt_beats l hs hy, Nat.xor_xor_cancel_left _ _, fun j _ h => ?_⟩
    rw [← h]
    exact (Nat.xor_xor_cancel_left _ _).symm

theorem AddrMap.Inv.beats_dvd {m : AddrMap} (h : m.Inv) (l : BurstLen) : l.beats ∣ 2 ^ m.colBits := by
  obtain ⟨-, -, low, -⟩ := h
  rw [l.beats_eq_pow]
  refine Nat.pow_dvd_pow 2 (Nat.le_trans ?_ low)
  cases l <;> decide

theorem beatColumn_lt {m : AddrMap} (h : m.Inv) (l : BurstLen) (o : BeatOrder) (col : Col) {i : Nat}
    (hi : i < l.beats) : beatColumn m l o col i < 2 ^ m.colBits := by
  obtain ⟨k, hk⟩ := h.beats_dvd l
  have pos : 0 < l.beats := Nat.zero_lt_of_lt hi
  rw [beatColumn_eq, hk, Nat.mul_comm l.beats k]
  refine mul_add_lt ?_ (o.place_lt l (Nat.mod_lt _ pos) hi)
  rw [Nat.div_lt_iff_lt_mul pos]
  refine Nat.mod_lt _ (Nat.pos_of_ne_zero fun h0 => ?_)
  rw [Nat.mul_comm] at h0
  exact absurd (hk.trans h0) (Nat.two_pow_pos _).ne'

theorem compositeIndex_lt (m : AddrMap) {b r c : Nat} (hb : b < 16) (hr : r < 2 ^ m.rowBits) (hc : c < 2 ^ m.colBits) :
    compositeIndex m b r c < 2 ^ (4 + m.rowBits + m.colBits) := by
  unfold compositeIndex
  have hb : b < 2 ^ 4 := hb
  cases m.order with
  | brc =>
    have inner := mul_add_lt hr hc
    rw [← pow_add] at inner
    have outer := mul_add_lt hb inner
    rw [← pow_add] at outer
    simpa only [Nat.add_assoc] using outer
  | rbc =>
    have inner := mul_add_lt hb hc
    rw [← pow_add] at inner
    have outer := mul_add_lt hr inner
    rw [← pow_add] at outer
    simpa only [Nat.add_assoc, Nat.add_left_comm] using outer

theorem compositeIndex_inj (m : AddrMap) {b b' r r' c c' : Nat} (hb : b < 16) (hb' : b' < 16)
    (hr : r < 2 ^ m.rowBits) (hr' : r' < 2 ^ m.rowBits) (hc : c < 2 ^ m.colBits) (hc' : c' < 2 ^ m.colBits)
    (h : compositeIndex m b r c = compositeIndex m b' r' c') : b = b' ∧ r = r' ∧ c = c' := by
  unfold compositeIndex at h
  have hb : b < 2 ^ 4 := hb
  have hb' : b' < 2 ^ 4 := hb'
  cases ho : m.order with
  | brc =>
    rw [ho] at h
    simp only [Nat.add_assoc] at h
    have inner := mul_add_lt hr hc
    have inner' := mul_add_lt hr' hc'
    rw [← pow_add] at inner inner'
    obtain ⟨hb, h⟩ := mul_add_inj inner inner' h
    obtain ⟨hr, hc⟩ := mul_add_inj hc hc' h
    exact ⟨hb, hr, hc⟩
  | rbc =>
    rw [ho] at h
    simp only [Nat.add_assoc] at h
    have inner := mul_add_lt hb hc
    have inner' := mul_add_lt hb' hc'
    rw [← pow_add] at inner inner'
    obtain ⟨hr, h⟩ := mul_add_inj inner inner' h
    obtain ⟨hb, hc⟩ := mul_add_inj hc hc' h
    exact ⟨hb, hr, hc⟩

/-- Settles O36: the columns by their place in the block, the addresses by their digits. -/
theorem burstAddressesFollowTheMap : Obligations.BurstAddressesFollowTheMap := by
  unfold Obligations.BurstAddressesFollowTheMap
  refine ⟨?_, fun m hm => ⟨fun _ _ _ => rfl, fun g i n hg => ⟨by rw [← hg]; rfl, fun hi hn => ?_⟩, ?_, ?_⟩⟩
  · intro m l o col _ n c base
    have beats : n = l.beats := by cases l <;> rfl
    have pos : 0 < l.beats := by cases l <;> decide
    have start : c - base = c % l.beats := by
      rw [show base = c / l.beats * l.beats by rw [← beats]]
      rw [Nat.sub_eq_iff_eq_add (Nat.div_mul_le_self _ _), Nat.mul_comm, Nat.add_comm, Nat.div_add_mod]
    have column (i : Nat) : beatColumn m l o col i = base + o.place l.beats (c % l.beats) i := by
      rw [beatColumn_eq, ← beats]
    rw [start, beats]
    refine ⟨fun i _ => ?_, fun x hx hlt => ?_⟩
    · rw [column]
      cases o <;> rfl
    · obtain ⟨i, hi, hp, unique⟩ := o.place_bijective l (start := c % l.beats) (y := x - base) (Nat.mod_lt _ pos) (by omega)
      refine ⟨i, hi, by rw [column, hp]; omega, fun j hj h => unique j hj ?_⟩
      rw [column] at h
      omega
  · have flat : g.address i n = compositeIndex m g.bank.toNat (g.row.toNat % 2 ^ m.rowBits)
        (beatColumn m g.len g.order g.column i) * 8 + n := by
      rw [← hg]
      rfl
    rw [flat]
    have index := compositeIndex_lt m g.bank.isLt (Nat.mod_lt g.row.toNat (Nat.two_pow_pos m.rowBits))
      (beatColumn_lt hm g.len g.order g.column hi)
    have address := mul_add_lt index (show n < 2 ^ 3 from hn)
    rw [← pow_add] at address
    rwa [show 4 + m.rowBits + m.colBits + 3 = 7 + m.rowBits + m.colBits by omega] at address
  · obtain ⟨-, hr, -, hc⟩ := hm
    omega
  · intro b b' r r' c c' n n' hb hb' hr hr' hc hc' hn hn' h
    obtain ⟨index, hn⟩ := mul_add_inj hn hn' h
    obtain ⟨hb, hr, hc⟩ := compositeIndex_inj m hb hb' hr hr' hc hc' index
    exact ⟨hb, hr, hc, hn⟩

end Sys2Proof.Machine
end

section
/-! SUPPORT. The effect slot of an entry, and what the arrival of an access gives the tracker. -/
namespace Sys2Proof.Machine

/-! ### The effect slot (R46, R94, R95, R105, R106) -/

theorem lockedShares_length (windows : Vector Window 16) (g : Burst) :
    (lockedShares windows g).length = g.len.beats := by
  simp [lockedShares]

/-- What the guard gives an entry with a row. -/
theorem State.guardEntry_row (s : State) {e : Entry} {g : Burst} (h : e.burst = some g) :
    s.guardEntry e =
      { e with
        guard := guardMasks s.windows g
        account := some (Account.start (lockedShares s.windows g) (contributors s.windows g) .none) } := by
  simp [State.guardEntry, h]

/-- What the guard gives an entry without a row, by the blind policy in force (R106). -/
theorem State.guardEntry_rowless (s : State) {e : Entry} (h : e.burst = none) :
    s.guardEntry e =
      { e with
        guard := List.replicate e.len.beats (if s.anyActiveGuard = true ∧ s.blind = .block then 0xFF else 0)
        account :=
          some (Account.start (List.replicate e.len.beats 0) 0
            (if s.anyActiveGuard = true then (match s.blind with
              | .pass => .pass
              | .block => .block) else .none)) } := by
  cases ha : s.anyActiveGuard <;> cases hb : s.blind <;> simp [State.guardEntry, h, ha, hb]

/-- The guard writes the masks and the account alone. -/
theorem State.guardEntry_frame (s : State) (e : Entry) :
    s.guardEntry e = { e with guard := (s.guardEntry e).guard, account := (s.guardEntry e).account } := by
  cases h : e.burst with
  | some g => rw [s.guardEntry_row h]
  | none => rw [s.guardEntry_rowless h]

/-- What the effect slot writes of an entry beside masks and account. -/
def State.effected (s : State) (e x : Entry) : Entry :=
  { x with
    phase := .waiting, satisfied := 0, candidates := candidatesOf s.windows e.kind e.burst
    hits := candidatesOf s.windows e.kind e.burst &&& ~~~conditional s.windows
    captured :=
      if s.anyCaptureData (candidatesOf s.windows e.kind e.burst) || s.capture.settings.captureAllData then some []
      else none }

theorem AccessKind.eq_read_or_write (k : AccessKind) : k = .read ∨ k = .write := by
  cases k
  · exact .inl rfl
  · exact .inr rfl

theorem State.effectEntry_read (s : State) {e : Entry} (h : e.kind = .read) : s.effectEntry e = s.effected e e := by
  unfold State.effectEntry State.effected
  simp only [h]

theorem State.effectEntry_write (s : State) {e : Entry} (h : e.kind = .write) :
    s.effectEntry e = s.effected e (s.guardEntry e) := by
  unfold State.effectEntry State.effected
  simp only [h]

theorem State.effectEntry_frame (s : State) (e : Entry) :
    s.effectEntry e =
      s.effected e { e with guard := (s.effectEntry e).guard, account := (s.effectEntry e).account } := by
  rcases AccessKind.eq_read_or_write e.kind with hk | hk
  · rw [s.effectEntry_read hk]
    rfl
  · rw [s.effectEntry_write hk, s.guardEntry_frame e]
    rfl

/-- Some active guard window, in the words of the statement. -/
theorem State.anyActiveGuard_iff_fields (s : State) :
    s.anyActiveGuard = true ↔
      ∃ k : Fin 16, s.windows[k].fields.enable = true ∧ s.windows[k].fields.actions.guard = true ∧
        s.windows[k].fields.kinds ≠ .read := by
  rw [s.anyActiveGuard_iff]
  exact exists_congr fun k => WindowFields.activeGuard_iff _

/-- The entry as the effect slot leaves it is the one of the statements. -/
theorem State.effectEntry_taken (s : State) (e : Entry) : s.EffectTaken e (s.effectEntry e) := by
  refine ⟨?_, fun hk => ?_, fun hk => ?_⟩
  · have frame := s.effectEntry_frame e
    have candidates : (s.effectEntry e).candidates = candidatesOf s.windows e.kind e.burst := by
      rw [frame]
      rfl
    have captured : (s.anyCaptureData (candidatesOf s.windows e.kind e.burst) ||
        s.capture.settings.captureAllData) = true ↔
        s.capture.settings.captureAllData = true ∨
          s.SomeHit (candidatesOf s.windows e.kind e.burst) (·.captureData) := by
      rw [Bool.or_eq_true, State.anyCaptureData, State.anyHitHas_iff, or_comm]
    rw [candidates]
    simp only [← captured]
    exact frame
  · rw [s.effectEntry_read hk]
    exact ⟨rfl, rfl⟩
  · have guard : (s.effectEntry e).guard = (s.guardEntry e).guard := by
      rw [s.effectEntry_write hk]
      rfl
    have account : (s.effectEntry e).account = (s.guardEntry e).account := by
      rw [s.effectEntry_write hk]
      rfl
    cases hb : e.burst with
    | some g =>
      rw [s.guardEntry_row hb] at guard account
      exact ⟨_, account, rfl, rfl, rfl, rfl, rfl, guard, rfl, lockedShares_length _ _,
        fun i n => lockedShares_iff _ _ i n, contributors_iff _ _⟩
    | none =>
      rw [s.guardEntry_rowless hb] at guard account
      refine ⟨_, account, rfl, rfl, rfl, rfl, rfl, ?_⟩
      simp only [s.anyActiveGuard_iff_fields] at guard ⊢
      exact ⟨guard, rfl, rfl, rfl⟩

theorem State.EffectTaken.number {s : State} {e e' : Entry} (h : s.EffectTaken e e') : e'.number = e.number := by
  rw [h.1]

theorem find?_replaced {l : List Entry} {e y : Entry} (he : e ∈ l) (hy : y.number = e.number) :
    (replaced e y l).find? (fun x => x.number == e.number) = some y := by
  induction l with
  | nil => cases he
  | cons x l ih =>
    unfold replaced at ih ⊢
    rw [List.map_cons]
    by_cases hx : x.number = e.number
    · rw [if_pos hx, List.find?_cons_of_pos (by simp [hy])]
    · rw [if_neg hx, List.find?_cons_of_neg (by simp [hx])]
      refine ih (List.mem_of_ne_of_mem ?_ he)
      rintro rfl
      exact hx rfl

theorem State.effectStep_due {s : State} {n : Nat} {e : Entry} (h : s.entry? n = some e) (hd : s.effectDue e = true) :
    s.effectStep n = (s.takeEffect e).1.handOut (s.takeEffect e).2 := by
  simp [State.effectStep, h, hd]

theorem State.takeEffect_eq (s : State) (e : Entry) :
    s.takeEffect e =
      (((s.updateEntry e.number fun _ => s.effectEntry e).hitEffects (s.effectEntry e).hits).1,
        { occurrences :=
            ((s.updateEntry e.number fun _ => s.effectEntry e).hitEffects (s.effectEntry e).hits).2
          records := [] }) := rfl

/-- The hits of an effect slot act at once, whatever stands in the list; what they offer is the SEQ windows' hits. -/
theorem State.effect_hits (s : State) (l : List Entry) (hits : WindowSet) :
    s.Stands (State.hitEffects { s with tracker := l } hits).1 ∧
    s.HitsActed (State.hitEffects { s with tracker := l } hits).1 [hits] ∧
    (State.hitEffects { s with tracker := l } hits).2 = s.seqHits hits := by
  have listed : s.Stands { s with tracker := l } := ⟨rfl, rfl, fun _ _ _ _ _ => rfl, id, fun _ => rfl, rfl, rfl⟩
  have none : s.HitsActed { s with tracker := l } [] := State.HitsActed.refl s
  exact ⟨listed.trans (State.hitEffects_stands _ hits), none.step hits, State.hitEffects_occurrences _ hits⟩

/-- SEQ windows offer their hits in ascending order (R98). -/
theorem State.seqHits_sorted (s : State) (hits : WindowSet) :
    (s.seqHits hits).Pairwise fun x y => ∀ i j, x = .windowHit i → y = .windowHit j → i < j := by
  unfold State.seqHits
  rw [List.pairwise_map]
  refine ((List.pairwise_lt_finRange 16).filter _).imp fun {x y} h i j hi hj => ?_
  cases hi
  cases hj
  exact h

/-- Settles O32: the entry as the effect slot leaves it, its hits, and the one list that is handed out. -/
theorem effectSlotIsTaken : Obligations.EffectSlotIsTaken := by
  unfold Obligations.EffectSlotIsTaken
  intro s place e hp hs he hphase heffect
  have mem : e ∈ s.tracker := List.mem_of_getElem? he
  have due : s.effectDue e = true := by simp [State.effectDue, Entry.isPosted, hphase, heffect]
  have step := exec_up (c := .effectSlot place) (f := fun t => t.effectStep (t.numberAt place)) rfl hp
  rw [State.effectStep_due (State.entry?_of_place hs he) due, s.takeEffect_eq, s.updateEntry_replaced hs mem] at step
  obtain ⟨stands, acted, offered⟩ := s.effect_hits (replaced e (s.effectEntry e) s.tracker) (s.effectEntry e).hits
  have frame := State.hitEffects_frame { s with tracker := replaced e (s.effectEntry e) s.tracker } (s.effectEntry e).hits
  generalize State.hitEffects { s with tracker := replaced e (s.effectEntry e) s.tracker } (s.effectEntry e).hits = u
    at step stands acted offered frame
  have out := u.1.handOut_offerStep { occurrences := u.2, records := [] }
  have handed := u.1.handOut_handedOut (rs := []) { occurrences := u.2, records := [] } (.single u.2) Merges.nil
  generalize u.1.handOut { occurrences := u.2, records := [] } = t at step out handed
  have tracker : t.tracker = replaced e (s.effectEntry e) s.tracker := by rw [out, frame]
  refine ⟨t, s.effectEntry e, step, ?_, s.effectEntry_taken e, tracker, acted.congr (by rw [out]) (by rw [out]), ?_,
    s.seqHits_sorted _⟩
  · rw [State.entry?, tracker]
    exact find?_replaced mem (s.effectEntry_number e)
  · rw [offered] at handed
    refine handed.congr stands.seq ?_ ?_ ?_ (stands.latch 7 (by decide) (by decide) (by decide) (by decide)) rfl rfl rfl
    all_goals rw [stands.capture]

end Sys2Proof.Machine
end

section
/-! SUPPORT. The arrival of a command: what the checker, the tracker and the shadow make of it in turn, and what is
handed out. -/
namespace Sys2Proof.Machine

/-! ### The guard's judgement of an untracked WRITE (R114) -/

/-- The report of an untracked WRITE, if it makes one (R114). -/
def State.untrackedReport (s : State) (u : Untracked) : Option GuardRec :=
  match u.burst s.map with
  | some g =>
    (firstGuarded (guardMasks s.windows g)).map fun i =>
      { window := lowest (contributors s.windows g)
        bank := u.bank, row := u.row, column := some (beatColumn g.map g.len g.order g.column i)
        lanes := (guardMasks s.windows g).foldl (· ||| ·) 0
        forced := 0, unprotected := ((guardMasks s.windows g).filter fun m => m != 0).length
        unable := true, blind := true, blocked := false, untracked := true
        locked := (lockedShares s.windows g).any fun m => m != 0
        stamp := u.stamp }
  | none =>
    if s.anyActiveGuard then
      some
        { window := none, bank := u.bank, row := u.row, column := some u.column.toNat, lanes := 0
          forced := 0, unprotected := 0, unable := false, blind := true, blocked := false
          untracked := true, locked := false, stamp := u.stamp }
    else none

/-- A report, or nothing. -/
def State.reportIf (s : State) : Option GuardRec → State × Offers
  | none => (s, Offers.none)
  | some r => s.report r

theorem State.judgeUntrackedWrite_eq (s : State) (u : Untracked) :
    s.judgeUntrackedWrite u = s.reportIf (s.untrackedReport u) := by
  unfold State.judgeUntrackedWrite State.untrackedReport
  cases u.burst s.map with
  | some g => cases hf : firstGuarded (guardMasks s.windows g) <;> simp [hf, State.reportIf]
  | none => cases ha : s.anyActiveGuard <;> simp [State.reportIf]

theorem State.reportIf_stands (s : State) (r : Option GuardRec) : s.Stands (s.reportIf r).1 := by
  cases r with
  | none => exact .refl s
  | some r => exact s.report_stands r

theorem State.reportIf_captureStep (s : State) (r : Option GuardRec) : s.CaptureStep (s.reportIf r).1 := by
  cases r with
  | none => exact .refl s
  | some r => exact s.report_step r

theorem State.reportIf_offers (s : State) (r : Option GuardRec) :
    (s.reportIf r).2 = { occurrences := r.toList.map fun _ => .guardEvent, records := r.toList.map .guard } := by
  cases r <;> rfl

theorem State.reportIf_access (s : State) (r : Option GuardRec) :
    (s.reportIf r).1.capture.access = s.capture.access := by
  cases r with
  | none => rfl
  | some r => simp [State.reportIf, State.report]

theorem State.GuardLatched.reportIf {s t : State} (h : s.GuardLatched t []) (r : Option GuardRec) :
    s.GuardLatched (t.reportIf r).1 r.toList := by
  cases r with
  | none => exact h
  | some r => exact h.report r

/-- Guard masks read the fields and the locks of the windows alone. -/
theorem guardMask_congr {v w : Vector Window 16} (h : ∀ k : Fin 16, v[k].fields = w[k].fields ∧ v[k].locked = w[k].locked)
    (locked : Bool) (g : Burst) (i : Nat) :
    guardMask v (fun x => !locked || x.locked) g i = guardMask w (fun x => !locked || x.locked) g i := by
  refine BitVec.eq_of_getLsbD_eq fun n hn => ?_
  rw [Bool.eq_iff_iff, guardMask_iff _ _ _ _ _ hn, guardMask_iff _ _ _ _ _ hn]
  exact exists_congr fun k => by rw [(h k).1, (h k).2]

theorem guardMasks_congr {v w : Vector Window 16} (h : ∀ k : Fin 16, v[k].fields = w[k].fields ∧ v[k].locked = w[k].locked)
    (g : Burst) : guardMasks v g = guardMasks w g :=
  List.map_congr_left fun i _ => guardMask_congr h false g i

theorem lockedShares_congr {v w : Vector Window 16}
    (h : ∀ k : Fin 16, v[k].fields = w[k].fields ∧ v[k].locked = w[k].locked) (g : Burst) :
    lockedShares v g = lockedShares w g :=
  List.map_congr_left fun i _ => guardMask_congr h true g i

theorem contributors_congr {v w : Vector Window 16}
    (h : ∀ k : Fin 16, v[k].fields = w[k].fields ∧ v[k].locked = w[k].locked) (g : Burst) :
    contributors v g = contributors w g :=
  WindowSet.ext fun k => by rw [Bool.eq_iff_iff, contributors_iff, contributors_iff, (h k).1]

theorem State.untrackedReport_congr {s t : State} (hm : t.map = s.map)
    (h : ∀ k : Fin 16, t.windows[k].fields = s.windows[k].fields ∧ t.windows[k].locked = s.windows[k].locked)
    (u : Untracked) : t.untrackedReport u = s.untrackedReport u := by
  have active : t.anyActiveGuard = s.anyActiveGuard := by
    rw [Bool.eq_iff_iff, State.anyActiveGuard_iff, State.anyActiveGuard_iff]
    exact exists_congr fun k => by rw [(h k).1]
  unfold State.untrackedReport
  rw [hm, active]
  simp only [guardMasks_congr h, lockedShares_congr h, contributors_congr h]

/-! ### An untracked access handed over (R45, R101, R114) -/

/-- The report of an untracked access: a READ makes none. -/
def State.untrackedReportOf (s : State) (u : Untracked) : Option GuardRec :=
  match u.kind with
  | .read => none
  | .write => s.untrackedReport u

/-- The state with the hits of an untracked access taken and its ACCESS record offered. -/
def State.untrackedTaken (s : State) (u : Untracked) : State :=
  (s.hitEffects (s.untrackedHits u)).1.offerAccess (s.untrackedHits u) (untrackedRecord u (s.untrackedHits u))

theorem State.untrackedTaken_frame (s : State) (u : Untracked) :
    s.untrackedTaken u =
      { s with
        windows := (s.untrackedTaken u).windows, cues := (s.untrackedTaken u).cues
        capture := (s.untrackedTaken u).capture, alert := (s.untrackedTaken u).alert } := by
  obtain ⟨same, -⟩ := (s.hitEffects (s.untrackedHits u)).1.offerAccess_step (s.untrackedHits u)
    (untrackedRecord u (s.untrackedHits u))
  have frame := s.hitEffects_frame (s.untrackedHits u)
  unfold State.untrackedTaken
  generalize (s.hitEffects (s.untrackedHits u)).1.offerAccess _ _ = t at *
  rw [same, frame]

theorem State.untrackedTaken_window (s : State) (u : Untracked) (k : Fin 16) :
    (s.untrackedTaken u).windows[k].fields = s.windows[k].fields ∧
    (s.untrackedTaken u).windows[k].locked = s.windows[k].locked := by
  obtain ⟨-, -, -, -, windows, -⟩ :=
    (s.hitEffects_step (s.untrackedHits u)).trans
      (State.CaptureStep.event (State.offerAccess_step _ (s.untrackedHits u) (untrackedRecord u (s.untrackedHits u))))
  exact windows k

theorem State.judgeUntracked_eq (s : State) (u : Untracked) :
    s.judgeUntracked u = s.reportIf (s.untrackedReportOf u) := by
  unfold State.judgeUntracked State.untrackedReportOf
  cases u.kind with
  | read => rfl
  | write => exact s.judgeUntrackedWrite_eq u

theorem State.untrackedTaken_reportOf (s : State) (u : Untracked) :
    (s.untrackedTaken u).untrackedReportOf u = s.untrackedReportOf u := by
  unfold State.untrackedReportOf
  rw [State.untrackedReport_congr (s := s) (by rw [s.untrackedTaken_frame u]) (s.untrackedTaken_window u)]

theorem State.handUntracked_report (s : State) (u : Untracked) :
    s.handUntracked u =
      ((s.untrackedTaken u).reportIf (s.untrackedReportOf u)).1.join
        { occurrences := s.seqHits (s.untrackedHits u), records := [] }
        ((s.untrackedTaken u).reportIf (s.untrackedReportOf u)).2 := by
  rw [s.handUntracked_eq]
  simp only
  rw [State.judgeUntracked_eq, s.hitEffects_occurrences]
  exact congrArg (fun r => ((s.untrackedTaken u).reportIf r).1.join _ ((s.untrackedTaken u).reportIf r).2)
    (s.untrackedTaken_reportOf u)

/-- What the arrival of an untracked access offers. -/
theorem State.handUntracked_offers (s : State) (u : Untracked) :
    (s.handUntracked u).2 =
      { occurrences := merged s.free (s.seqHits (s.untrackedHits u))
          ((s.untrackedReportOf u).toList.map fun _ => .guardEvent)
        records := (s.untrackedReportOf u).toList.map .guard } := by
  have free : ((s.untrackedTaken u).reportIf (s.untrackedReportOf u)).1.free = s.free := by
    obtain ⟨same, -⟩ := (s.untrackedTaken u).reportIf_captureStep (s.untrackedReportOf u)
    rw [same, s.untrackedTaken_frame u]
  rw [s.handUntracked_report, State.reportIf_offers, State.join, free, merged_nil_left]

/-! ### What the tracker makes of a command (R42 to R47) -/

theorem State.tracker_stands (s : State) (l : List Entry) (n : Nat) :
    s.Stands { s with tracker := l, nextNumber := n } :=
  ⟨rfl, rfl, fun _ _ _ _ _ => rfl, id, fun _ => rfl, rfl, rfl⟩

theorem State.handUntracked_stands (s : State) (u : Untracked) : s.Stands (s.handUntracked u).1 := by
  rw [s.handUntracked_report]
  exact (((s.hitEffects_stands _).trans (State.offerAccess_stands _ _ _)).trans
    (State.reportIf_stands (s.untrackedTaken u) _)).trans (State.join_stands _ _ _)

theorem State.joinList_stands (s : State) (e : Entry) : s.Stands (s.joinList e).1 := by
  unfold State.joinList
  simp only
  split
  · exact s.tracker_stands _ _
  · exact (s.tracker_stands _ _).trans
      ((State.tracker_stands _ _ _).trans (State.hitEffects_stands (State.updateEntry _ e.number fun _ => _) _))

theorem State.markDoubtful_stands (s : State) (c : Cmd) : s.Stands (s.markDoubtful c) := by
  unfold State.markDoubtful
  split
  · exact s.tracker_stands _ s.nextNumber
  · exact .refl s

theorem State.trackArrival_untracked (s : State) (kind : AccessKind) (b : BankNo) (col : Col) (ac : Bool)
    {reason : UntrackedReason} (h : s.untrackedReason = some reason) :
    s.trackArrival (.access kind b col ac) = s.handUntracked (s.untrackedOf kind b col ac reason) := by
  simp [State.trackArrival, h]

theorem State.trackArrival_tracked (s : State) (kind : AccessKind) (b : BankNo) (col : Col) (ac : Bool) {t : Timing}
    (h : s.untrackedReason = none) (ht : s.timing kind = some t) :
    s.trackArrival (.access kind b col ac) = s.joinList (s.newEntry kind b col ac t) := by
  simp [State.trackArrival, h, ht]

theorem State.trackArrival_untimed (s : State) (kind : AccessKind) (b : BankNo) (col : Col) (ac : Bool)
    (h : s.untrackedReason = none) (ht : s.timing kind = none) :
    s.trackArrival (.access kind b col ac) = (s, Offers.none) := by
  simp [State.trackArrival, h, ht]

theorem State.trackArrival_stands (s : State) (c : Cmd) : s.Stands (s.trackArrival c).1 := by
  cases c with
  | access kind b col ac =>
    cases h : s.untrackedReason with
    | some reason =>
      rw [s.trackArrival_untracked kind b col ac h]
      exact s.handUntracked_stands _
    | none =>
      cases ht : s.timing kind with
      | some t =>
        rw [s.trackArrival_tracked kind b col ac h ht]
        exact s.joinList_stands _
      | none =>
        rw [s.trackArrival_untimed kind b col ac h ht]
        exact .refl s
  | _ => exact s.markDoubtful_stands _

/-- What a tracked access offers at its arrival: without a posted delay the hits of its effect slot. -/
theorem State.joinList_offers (s : State) (e : Entry) :
    (s.joinList e).2 =
      { occurrences :=
          if e.posted then []
          else s.seqHits (candidatesOf s.windows e.kind e.burst &&& ~~~conditional s.windows)
        records := [] } := by
  cases hp : e.posted with
  | true => simp [State.joinList, hp, Offers.none]
  | false =>
    simp only [State.joinList, hp, State.takeEffect_eq, State.hitEffects_occurrences]
    rfl

/-- The state in which the tracker and the shadow take a command: pins and checker have taken it (R65). -/
def State.found (s : State) (fwd : Forwarding) (turns : Turns) (checker : Checker) (alert : Alert) : State :=
  { s with fwd := fwd, turns := turns, checker := checker, alert := alert }

/-- What the tracker offers does not read what the checker and the sampling of the pins write. -/
theorem State.trackArrival_offers (s : State) (c : Cmd) (fwd : Forwarding) (turns : Turns) (checker : Checker)
    (alert : Alert) :
    ((s.found fwd turns checker alert).trackArrival c).2 = (s.trackArrival c).2 := by
  cases c with
  | access kind b col ac =>
    cases h : s.untrackedReason with
    | some reason =>
      have found : (s.found fwd turns checker alert).untrackedReason = some reason := h
      rw [s.trackArrival_untracked kind b col ac h, State.trackArrival_untracked _ kind b col ac found,
        State.handUntracked_offers, State.handUntracked_offers]
      rfl
    | none =>
      have found : (s.found fwd turns checker alert).untrackedReason = none := h
      cases ht : s.timing kind with
      | none =>
        have untimed : (s.found fwd turns checker alert).timing kind = none := ht
        rw [s.trackArrival_untimed kind b col ac h ht, State.trackArrival_untimed _ kind b col ac found untimed]
      | some t =>
        have timed : (s.found fwd turns checker alert).timing kind = some t := ht
        rw [s.trackArrival_tracked kind b col ac h ht, State.trackArrival_tracked _ kind b col ac found timed,
          State.joinList_offers, State.joinList_offers]
        rfl
  | _ => rfl

/-! ### What an arrival hands out (R65, R81 to R83) -/

/-- The state after the pins' sample and the checker's judgement of a command (R1, R65). -/
def State.checked (s : State) (c : Cmd) : State := (s.sampleCommand (.command c)).judged c

theorem State.checked_eq (s : State) (c : Cmd) :
    s.checked c =
      s.found { s.fwd with rxCommand := some (.command c) } { s.turns with command := true } (s.checked c).checker
        (s.checked c).alert :=
  (s.sampleCommand (.command c)).judged_checkerStep c

theorem brokenRules_sampled (s : State) (w : ChannelWord) (c : Cmd) :
    brokenRules (s.sampleCommand w) c = brokenRules s c := rfl

/-- The latches after the checker's judgement: VIOLATION alone may be set (R81). -/
theorem State.checked_latch (s : State) (c : Cmd) (i : Nat) :
    (s.checked c).alert.latches.getLsbD i = (s.alert.latches.getLsbD i || brokenRules s c != 0 && decide (i = 0)) := by
  unfold State.checked State.judged State.violate
  rw [brokenRules_sampled]
  by_cases h : brokenRules s c = 0
  · rw [if_pos h, h]
    simp [State.checkerTakes]
  · rw [if_neg h, bne_iff_ne.mpr h]
    change (s.alert.latches ||| Cause.violation.set).getLsbD i = _
    rw [BitVec.getLsbD_or, Cause.set_getLsbD]
    rfl

/-- Whatever it stands on, the tracker's part of an arrival leaves what is handed out to as it stood. -/
theorem State.arrived_stands (s : State) (c : Cmd) : (s.checked c).Stands ((s.checked c).trackArrival c).1 :=
  State.trackArrival_stands _ c

/-- The shadow writes the channel state, the banks and the mode words alone. -/
theorem State.shadow_frame (s : State) (c : Cmd) :
    s.shadow c = { s with chan := (s.shadow c).chan, banks := (s.shadow c).banks, modes := (s.shadow c).modes } := by
  unfold State.shadow
  cases s.chan with
  | live => cases c <;> rfl
  | asleep => cases c <;> rfl
  | resetHeld => rfl

theorem State.shadow_kept (s : State) (c : Cmd) :
    (s.shadow c).seq = s.seq ∧ (s.shadow c).capture = s.capture ∧ (s.shadow c).alert = s.alert := by
  rw [s.shadow_frame c]
  exact ⟨rfl, rfl, rfl⟩

theorem State.checked_kept (s : State) (c : Cmd) : (s.checked c).seq = s.seq ∧ (s.checked c).capture = s.capture := by
  rw [s.checked_eq c]
  exact ⟨rfl, rfl⟩

/-- What the violation of the rules given offers. -/
def violationOffers (s : State) (c : Cmd) (rules : RuleSet) : Offers :=
  { occurrences := if rules = 0 then [] else [.violation rules]
    records := (members rules).map fun n => .violation n c s.now }

theorem State.violate_offers (s : State) (c : Cmd) (rules : RuleSet) :
    (s.violate c rules).2 = violationOffers s c rules := by
  unfold State.violate violationOffers
  by_cases h : rules = 0
  · rw [if_pos h, if_pos h, (members_eq_nil rules).mpr h]
    rfl
  · rw [if_neg h, if_neg h]

/-- An arrival: checker, tracker and shadow in turn, and what is handed out. -/
theorem State.arrive_eq (s : State) (c : Cmd) (hs : s.Listens) :
    s.arrive c =
      let tracked := (s.checked c).trackArrival c
      let both := (tracked.1.shadow c).join (violationOffers s c (brokenRules s c)) (s.trackArrival c).2
      let all := both.1.join both.2 (sleepOffers s c)
      all.1.handOut all.2 := by
  have offers : ((s.checked c).trackArrival c).2 = (s.trackArrival c).2 := by
    rw [s.checked_eq c]
    exact s.trackArrival_offers c _ _ _ _
  rw [s.arrive_up c hs.1 hs.2, State.takeCommand_eq, brokenRules_sampled, State.violate_offers, ← offers]
  rfl

theorem State.arrive_offerStep (s : State) (c : Cmd) (hs : s.Listens) :
    (((s.checked c).trackArrival c).1.shadow c).OfferStep (s.arrive c) := by
  rw [s.arrive_eq c hs]
  exact ((State.join_offerStep _ _ _).trans (State.join_offerStep _ _ _)).trans (State.handOut_offerStep _ _)

/-- Of trace capture and the latches an arrival's hand-out reaches event staging, SEQ_OVERRUN and CAPTURE_GAP. -/
theorem State.arrive_capture (s : State) (c : Cmd) (hs : s.Listens) :
    (s.arrive c).capture =
      { ((s.checked c).trackArrival c).1.capture with event := (s.arrive c).capture.event } := by
  obtain ⟨-, capture, -⟩ := ((s.checked c).trackArrival c).1.shadow_kept c
  rw [s.arrive_eq c hs]
  simp only
  rw [State.handOut_capture, ← capture]
  rfl

theorem State.arrive_latch (s : State) (c : Cmd) (hs : s.Listens) {i : Nat} (h7 : i ≠ 7) (h8 : i ≠ 8) :
    (s.arrive c).alert.latches.getLsbD i = ((s.checked c).trackArrival c).1.alert.latches.getLsbD i := by
  obtain ⟨-, -, alert⟩ := ((s.checked c).trackArrival c).1.shadow_kept c
  rw [s.arrive_eq c hs]
  simp only
  rw [State.handOut_latch _ _ h7 h8, ← alert]
  rfl

theorem State.arrive_gap (s : State) (c : Cmd) (hs : s.Listens)
    (h : ((s.checked c).trackArrival c).1.alert.latches.getLsbD 8 = true) :
    (s.arrive c).alert.latches.getLsbD 8 = true := by
  obtain ⟨-, -, alert⟩ := ((s.checked c).trackArrival c).1.shadow_kept c
  rw [s.arrive_eq c hs]
  refine State.handOut_gap _ _ ?_
  rw [← alert] at h
  exact h

/-- What an arrival hands out, given what the tracker's offers merge. -/
theorem State.arrive_handedOut (s : State) (c : Cmd) (hs : s.Listens) {os : List (List Occurrence)}
    {rs : List (List Record)} (ho : Merges (s.trackArrival c).2.occurrences os)
    (hr : Merges (s.trackArrival c).2.records rs) :
    s.HandedOut (s.arrive c)
      ([if brokenRules s c = 0 then [] else [.violation (brokenRules s c)]] ++ os)
      ([(members (brokenRules s c)).map fun n => .violation n c s.now] ++ rs ++ [(sleepOffers s c).records]) := by
  have stands := s.arrived_stands c
  have latch := (stands.latch 7 (by decide) (by decide) (by decide) (by decide)).trans (s.checked_latch c 7)
  rw [show (brokenRules s c != 0 && decide (7 = 0)) = false from Bool.and_false _, Bool.or_false] at latch
  have capture := stands.capture
  have seq := stands.seq
  obtain ⟨seq', capture'⟩ := s.checked_kept c
  rw [capture'] at capture
  rw [s.arrive_eq c hs]
  simp only
  generalize (s.checked c).trackArrival c = tracked at *
  obtain ⟨seq'', capture'', alert⟩ := tracked.1.shadow_kept c
  have none : (sleepOffers s c).occurrences = [] := by
    unfold sleepOffers
    split <;> rfl
  have merges := State.handOut_handedOut
    (((tracked.1.shadow c).join (violationOffers s c (brokenRules s c)) (s.trackArrival c).2).1.join
      ((tracked.1.shadow c).join (violationOffers s c (brokenRules s c)) (s.trackArrival c).2).2 (sleepOffers s c)).1
    (((tracked.1.shadow c).join (violationOffers s c (brokenRules s c)) (s.trackArrival c).2).1.join
      ((tracked.1.shadow c).join (violationOffers s c (brokenRules s c)) (s.trackArrival c).2).2 (sleepOffers s c)).2
    (os := [(violationOffers s c (brokenRules s c)).occurrences] ++ os ++ [])
    (rs := [(violationOffers s c (brokenRules s c)).records] ++ rs ++ [(sleepOffers s c).records])
    (((Merges.single _).merged ho _).merged (by rw [none]; exact Merges.nil) _)
    (((Merges.single _).merged hr _).merged (.single _) _)
  rw [List.append_nil] at merges
  refine merges.congr ((seq''.trans seq).trans seq') ?_ ?_ ?_ ?_ rfl rfl rfl
  · exact (congrArg Capture.event capture'').trans (by rw [capture])
  · exact (congrArg Capture.state capture'').trans (by rw [capture])
  · exact (congrArg Capture.settings capture'').trans (by rw [capture])
  · exact (congrArg (fun x : Alert => x.latches.getLsbD 7) alert).trans latch

end Sys2Proof.Machine
end

section
/-! SUPPORT. What an arrival hands out and what it gives the tracker, settled. -/
namespace Sys2Proof.Machine

/-! ### Violations (R81 to R83) -/

theorem State.arrive_checker (s : State) (c : Cmd) (hs : s.Listens) : (s.arrive c).checker = (s.checked c).checker := by
  rw [s.arrive_up c hs.1 hs.2, State.takeCommand_checker]
  rfl

theorem State.arrive_fwd (s : State) (c : Cmd) (hs : s.Listens) :
    (s.arrive c).fwd = { s.fwd with rxCommand := some (.command c) } := by
  have out := s.arrive_offerStep c hs
  have shadow := ((s.checked c).trackArrival c).1.shadow_frame c
  rw [out, shadow, (s.arrived_stands c).fwd, s.checked_eq c]
  rfl

/-- The first-violation record after the checker's judgement (R82). -/
def firstJudged (s : State) (c : Cmd) (rules : RuleSet) : Option FirstViolation :=
  if rules = 0 then s.checker.first else firstAfter s c rules

theorem firstJudged_eq (s : State) (c : Cmd) (rules : RuleSet) :
    firstJudged s c rules =
      match s.checker.first with
      | some f => some f
      | none => if rules = 0 then none else some { cmd := c, chan := s.chan, rules := rules, stamp := s.now } := by
  unfold firstJudged firstAfter
  by_cases h : rules = 0
  · rw [if_pos h]
    cases s.checker.first with
    | some f => rfl
    | none => exact (if_pos h).symm
  · rw [if_neg h]
    cases s.checker.first with
    | some f => rfl
    | none => exact (if_neg h).symm

theorem State.checked_checker (s : State) (c : Cmd) :
    (s.checked c).checker =
      { s.checker with
        counts := raiseCounts s.checker.counts (brokenRules s c), first := firstJudged s c (brokenRules s c)
        readEnd := readEndAfter s c, measure := measureAfter s c, rolling := rollingAfter s c } :=
  (s.sampleCommand (.command c)).judged_eq c

theorem sleepOffers_records (s : State) (c : Cmd) :
    (sleepOffers s c).records =
      match c, s.chan with
      | .sleepEnter, .live => [.channel .sleepEnter s.now]
      | .sleepExit, .asleep => [.channel .sleepExit s.now]
      | _, _ => [] := by
  unfold sleepOffers
  cases c with
  | sleepEnter => cases s.chan <;> rfl
  | sleepExit => cases s.chan <;> rfl
  | _ => rfl

theorem sleepOffers_none (s : State) {c : Cmd} (he : c ≠ .sleepEnter) (hx : c ≠ .sleepExit) :
    (sleepOffers s c).records = [] := by
  unfold sleepOffers
  cases c with
  | sleepEnter => exact absurd rfl he
  | sleepExit => exact absurd rfl hx
  | _ => rfl

/-- With one list offered that staging takes whole, staging takes it in its order. -/
theorem State.RecordsQueued.records_of_one {s t : State} {rs : List (List Record)} {l : List Record}
    (h : s.RecordsQueued t rs) (hl : rs.flatten = l) (hm : l ∈ rs) (hr : s.capture.running = true)
    (ha : ∀ r ∈ l, s.capture.settings.classes.allows r = true)
    (hn : s.capture.event.records.length + l.length ≤ 8) :
    t.capture.event.records = s.capture.event.records ++ l := by
  obtain ⟨queued, perm, sublist, records, -⟩ := h.2 hr (by omega)
  have all : l.filter s.capture.settings.classes.allows = l := List.filter_eq_self.mpr ha
  have sub := sublist l hm
  rw [hl] at perm
  simp only [all] at perm sub
  rw [records, ← sub.eq_of_length perm.length_eq.symm, List.take_of_length_le (by simpa using hn)]

/-- Settles O20: the checker's own values and what the arrival hands out. -/
theorem violationIsCounted : Obligations.ViolationIsCounted := by
  unfold Obligations.ViolationIsCounted
  intro s c hs broken records
  have handed := s.arrive_handedOut c hs (.single _) (.single _)
  have checker := (s.arrive_checker c hs).trans (s.checked_checker c)
  refine ⟨⟨members_sorted _, fun n => mem_members _ n⟩, _, exec_arrival c s, ?_, ?_, fun n => ?_, ?_, ?_, ?_,
    fun hr hv hn he hx hl => ?_⟩
  · rw [s.arrive_fwd c hs]
  · rw [checker]
  · rw [checker]
    exact raiseCounts_get _ _ n
  · rw [s.arrive_latch c hs (by decide) (by decide),
      (s.arrived_stands c).latch 0 (by decide) (by decide) (by decide) (by decide), s.checked_latch]
    exact congrArg (_ || ·) (Bool.and_true _)
  · rw [checker]
    exact firstJudged_eq s c broken
  · rw [sleepOffers_records] at handed
    exact handed
  · rw [sleepOffers_none s he hx, hn] at handed
    refine State.RecordsQueued.records_of_one handed.2 (by simp [records, broken]) (by simp [records, broken]) hr (fun r hrec => ?_) hl
    obtain ⟨n, -, rfl⟩ := List.mem_map.mp hrec
    exact hv

end Sys2Proof.Machine
end

section
/-! SUPPORT. The arrival of an access, tracked and untracked. -/
namespace Sys2Proof.Machine

/-! ### What an access's arrival hands out -/

/-- Records handed out from some of the lists, when these hold all of them. -/
theorem State.HandedOut.records_of_subset {s t : State} {os : List (List Occurrence)} {rs rs' : List (List Record)}
    (h : s.HandedOut t os rs) (hp : rs.flatten.Perm rs'.flatten) (hs : ∀ x ∈ rs', x ∈ rs) : s.HandedOut t os rs' := by
  obtain ⟨occurrences, stopped, running⟩ := h
  refine ⟨occurrences, stopped, fun hr hl => ?_⟩
  obtain ⟨l, perm, sublist, rest⟩ := running hr hl
  exact ⟨l, perm.trans (hp.filter _), fun x hx => sublist x (hs x hx), rest⟩

/-- The arrival of an access offers no CHANNEL record. -/
theorem State.access_handedOut (s : State) (kind : AccessKind) (b : BankNo) (col : Col) (ac : Bool) (hs : s.Listens)
    {os : List (List Occurrence)} {rs : List (List Record)}
    (ho : Merges (s.trackArrival (.access kind b col ac)).2.occurrences os)
    (hr : Merges (s.trackArrival (.access kind b col ac)).2.records rs) :
    s.HandedOut (s.arrive (.access kind b col ac))
      ([if brokenRules s (.access kind b col ac) = 0 then []
        else [.violation (brokenRules s (.access kind b col ac))]] ++ os)
      (rs ++ [(members (brokenRules s (.access kind b col ac))).map fun n => .violation n (.access kind b col ac) s.now]) := by
  have handed := s.arrive_handedOut (.access kind b col ac) hs ho hr
  generalize brokenRules s (.access kind b col ac) = broken at handed ⊢
  generalize (members broken).map (fun n => Record.violation n (.access kind b col ac) s.now) = violations at handed ⊢
  refine handed.records_of_subset ?_ fun x hx => ?_
  · have none : (sleepOffers s (.access kind b col ac)).records = [] := sleepOffers_none s nofun nofun
    rw [none]
    simp only [List.flatten_append, List.flatten_cons, List.flatten_nil, List.append_nil]
    exact List.perm_append_comm
  · rcases List.mem_append.mp hx with h | h
    · simp [h]
    · rw [List.mem_singleton.mp h]
      simp

/-! ### Untracked accesses (R42, R45, R101, R114, R150) -/

theorem State.untrackedReason_eq (s : State) :
    s.untrackedReason =
      if s.chan ≠ .live then some .state
      else if s.modes.word0 = none ∨ s.modes.word1 = none then some .modeUnset
      else if 8 ≤ s.tracker.length then some .full else none :=
  if_congr Iff.rfl rfl (if_congr (by simp) rfl (if_congr Iff.rfl rfl rfl))

/-- What an untracked access leaves, its offers apart. -/
theorem State.handUntracked_acts (s : State) (u : Untracked) {r : AccessRec}
    (hr : untrackedRecord u (s.untrackedHits u) = .access r) :
    s.HitsActed (s.handUntracked u).1 [s.untrackedHits u] ∧
    s.AccessQueued (s.handUntracked u).1
      (if s.capture.settings.captureAll = true ∨ s.SomeHit (s.untrackedHits u) (·.capture) then [r] else []) ∧
    s.GuardLatched (s.handUntracked u).1 (s.untrackedReportOf u).toList ∧ s.SameTracker (s.handUntracked u).1 := by
  obtain ⟨-, acted, queued, latched, -⟩ :=
    State.hit_offered (.refl s) (.refl s) (.refl s) (.refl s) (s.untrackedHits u) (s.untrackedHits u) r
  have frame := s.untrackedTaken_frame u
  rw [← hr] at acted queued latched
  change s.HitsActed (s.untrackedTaken u) [s.untrackedHits u] at acted
  change s.AccessQueued (s.untrackedTaken u) ([] ++ _) at queued
  change s.GuardLatched (s.untrackedTaken u) [] at latched
  rw [List.nil_append] at queued
  rw [s.handUntracked_report]
  generalize s.untrackedTaken u = t at *
  obtain ⟨same, -⟩ := t.reportIf_captureStep (s.untrackedReportOf u)
  have report := latched.reportIf (s.untrackedReportOf u)
  have access := t.reportIf_access (s.untrackedReportOf u)
  have stands := t.reportIf_stands (s.untrackedReportOf u)
  generalize t.reportIf (s.untrackedReportOf u) = p at *
  refine ⟨acted.congr ?_ ?_, queued.congr access stands.gap, report, ?_⟩
  · exact (congrArg State.windows same :)
  · exact (congrArg State.cues same :)
  · change p.1.tracker = s.tracker ∧ p.1.waiting = s.waiting ∧ p.1.nextNumber = s.nextNumber
    rw [same, frame]
    exact ⟨rfl, rfl, rfl⟩

/-- A report and its guard event, as lists of their own. -/
theorem reported_merges (l : List Occurrence) (n : Nat) (r : Option GuardRec) :
    Merges (merged n l (r.toList.map fun _ => .guardEvent)) ([l] ++ r.toList.map fun _ => [.guardEvent]) ∧
    Merges (r.toList.map Record.guard) (r.toList.map fun x => [.guard x]) := by
  cases r with
  | none => exact ⟨(Merges.single l).merged .nil n, .nil⟩
  | some r => exact ⟨(Merges.single l).merged (.single _) n, .single _⟩

/-- What the tracker's part of an arrival leaves is what the arrival leaves of windows, pins, access staging, the guard
latches and the tracker. -/
theorem State.arrive_acts (s : State) (c : Cmd) (hs : s.Listens) :
    (s.arrive c).windows = ((s.checked c).trackArrival c).1.windows ∧
    (s.arrive c).cues = ((s.checked c).trackArrival c).1.cues ∧
    ((s.checked c).trackArrival c).1.SameTracker (s.arrive c) := by
  have out := s.arrive_offerStep c hs
  have shadow := ((s.checked c).trackArrival c).1.shadow_frame c
  rw [out, shadow]
  exact ⟨rfl, rfl, rfl, rfl, rfl⟩

/-- Statements about hits, ACCESS records, guard latches and tracker made in the state that the checker leaves hold of
the state found. -/
theorem State.of_checked (s : State) (c : Cmd) {t : State} {hits : List WindowSet} {l : List AccessRec}
    {reports : List GuardRec} (hh : (s.checked c).HitsActed t hits) (hl : (s.checked c).AccessQueued t l)
    (hr : (s.checked c).GuardLatched t reports) :
    s.HitsActed t hits ∧ s.AccessQueued t l ∧ s.GuardLatched t reports := by
  have latch (i : Nat) (hi : i ≠ 0) : (s.checked c).alert.latches.getLsbD i = s.alert.latches.getLsbD i := by
    rw [s.checked_latch c i, decide_eq_false hi, Bool.and_false, Bool.or_false]
  obtain ⟨hit, locked, unable⟩ := hr
  rw [latch _ (by decide)] at hit locked unable
  rw [s.checked_eq c] at hh hl
  exact ⟨hh, hl, hit, locked, unable⟩

/-- The burst of an untracked access in the words of the statements. -/
theorem State.untrackedOf_burst (s : State) (kind : AccessKind) (b : BankNo) (col : Col) (ac : Bool)
    (reason : UntrackedReason) :
    (s.untrackedOf kind b col ac reason).burst s.map =
      match (s.untrackedOf kind b col ac reason).row, s.modes.word0.map fun m => (m.len, m.order) with
      | some r, some (l, o) => some { map := s.map, bank := b, row := r, column := col, len := l, order := o }
      | _, _ => none := by
  unfold Untracked.burst
  rfl

theorem State.untrackedOf_record (s : State) (kind : AccessKind) (b : BankNo) (col : Col) (ac : Bool)
    (reason : UntrackedReason) (hits : WindowSet) :
    untrackedRecord (s.untrackedOf kind b col ac reason) hits =
      .access
        { kind := kind, bank := b, row := (s.untrackedOf kind b col ac reason).row, column := col
          lenOrder := s.modes.word0.map fun m => (m.len, m.order), autoClose := ac
          posted := s.modes.word1.any fun m => m.postedDelay != 0
          outcome := none, doubtful := false, rowless := (s.untrackedOf kind b col ac reason).row.isNone
          cutFlag := false, untracked := some reason
          hits := hits, beatsSeen := 0, data := false, beats := [], stamp := s.now } := by
  unfold untrackedRecord State.untrackedOf
  cases s.modes.word1 <;> rfl

/-- The report of an untracked access in the words of the statements (R114). -/
theorem State.untrackedReportOf_eq (s : State) (u : Untracked) :
    s.untrackedReportOf u =
      match u.kind, u.burst s.map with
      | .read, _ => none
      | .write, some g =>
        match (guardMasks s.windows g).findIdx? fun m => m != 0 with
        | none => none
        | some i =>
          some
            { window := (List.finRange 16).find? fun k => (contributors s.windows g).getLsbD k.val
              bank := u.bank, row := u.row, column := some (beatColumn g.map g.len g.order g.column i)
              lanes := (guardMasks s.windows g).foldl (· ||| ·) 0
              forced := 0, unprotected := (guardMasks s.windows g).countP fun m => m != 0
              unable := true, blind := true, blocked := false, untracked := true
              locked := (lockedShares s.windows g).any fun m => m != 0
              stamp := u.stamp }
      | .write, none =>
        if ∃ k : Fin 16, s.windows[k].fields.activeGuard = true then
          some
            { window := none, bank := u.bank, row := u.row, column := some u.column.toNat, lanes := 0, forced := 0
              unprotected := 0, unable := false, blind := true, blocked := false, untracked := true
              locked := false, stamp := u.stamp }
        else none := by
  unfold State.untrackedReportOf State.untrackedReport
  cases u.kind with
  | read => rfl
  | write =>
    cases u.burst s.map with
    | some g =>
      simp only [firstGuarded, lowest_eq_find?, List.countP_eq_length_filter]
      cases (guardMasks s.windows g).findIdx? fun m => m != 0 <;> rfl
    | none => exact if_congr s.anyActiveGuard_iff rfl rfl

/-- Settles O17: the hits, the ACCESS record and the guard's report of one untracked access, and what is handed out. -/
theorem accessIsUntracked : Obligations.AccessIsUntracked := by
  unfold Obligations.AccessIsUntracked
  intro s kind b col ac reason hs hreason row lenOrder burst hits broken report record
  rw [← s.untrackedReason_eq] at hreason
  let u := s.untrackedOf kind b col ac reason
  have at_row : row = u.row := rfl
  have at_burst : burst = u.burst s.map := by
    rw [s.untrackedOf_burst]
    rfl
  have at_hits : hits = s.untrackedHits u := congrArg (fun g => candidatesOf s.windows kind g &&& _) at_burst
  have at_record : untrackedRecord u hits = .access record := s.untrackedOf_record kind b col ac reason hits
  have at_report : report = s.untrackedReportOf u := by
    unfold report
    rw [at_burst]
    exact (s.untrackedReportOf_eq u).symm
  have unreasoned : (s.checked (.access kind b col ac)).untrackedReason = some reason := by
    rw [s.checked_eq]
    exact hreason
  have tracked : (s.checked (.access kind b col ac)).trackArrival (.access kind b col ac) =
      (s.checked (.access kind b col ac)).handUntracked u := by
    rw [State.trackArrival_untracked _ kind b col ac unreasoned, s.checked_eq]
    rfl
  have same : (s.checked (.access kind b col ac)).untrackedHits u = hits ∧
      (s.checked (.access kind b col ac)).untrackedReportOf u = report ∧
      (s.checked (.access kind b col ac)).SomeHit hits (·.capture) = s.SomeHit hits (·.capture) := by
    rw [at_hits, at_report, s.checked_eq]
    exact ⟨rfl, rfl, rfl⟩
  obtain ⟨same_hits, same_report, same_some⟩ := same
  obtain ⟨-, same_capture⟩ := s.checked_kept (.access kind b col ac)
  obtain ⟨acted, queued, latched, ⟨tracker, waiting, number⟩⟩ :=
    (s.checked (.access kind b col ac)).handUntracked_acts u (r := record) (by rw [same_hits]; exact at_record)
  rw [same_hits] at acted
  simp only [same_hits, same_capture, same_some] at queued
  rw [same_report] at latched
  have merges := reported_merges (s.seqHits hits) s.free report
  have offers : (s.trackArrival (.access kind b col ac)).2 = (s.handUntracked u).2 :=
    congrArg Prod.snd (s.trackArrival_untracked kind b col ac hreason)
  rw [s.handUntracked_offers, ← at_hits, ← at_report] at offers
  have handed := s.access_handedOut kind b col ac hs (os := [s.seqHits hits] ++ report.toList.map fun _ => [.guardEvent])
    (rs := report.toList.map fun r => [.guard r]) (by rw [offers]; exact merges.1) (by rw [offers]; exact merges.2)
  obtain ⟨windows, cues, ⟨tracker', waiting', number'⟩⟩ := s.arrive_acts (.access kind b col ac) hs
  have capture := s.arrive_capture (.access kind b col ac) hs
  have gap := s.arrive_gap (.access kind b col ac) hs
  have latch {i : Nat} := s.arrive_latch (.access kind b col ac) hs (i := i)
  rw [tracked] at windows cues tracker' waiting' number' capture gap
  simp only [tracked] at latch
  have found : (s.checked (.access kind b col ac)).tracker = s.tracker ∧
      (s.checked (.access kind b col ac)).waiting = s.waiting ∧
      (s.checked (.access kind b col ac)).nextNumber = s.nextNumber := by
    rw [s.checked_eq]
    exact ⟨rfl, rfl, rfl⟩
  obtain ⟨ftracker, fwaiting, fnumber⟩ := found
  obtain ⟨acted, queued, latched⟩ := s.of_checked (.access kind b col ac) acted queued latched
  refine ⟨_, exec_arrival _ s, ⟨tracker'.trans (tracker.trans ftracker), waiting'.trans (waiting.trans fwaiting),
    number'.trans (number.trans fnumber)⟩, acted.congr windows cues, ?_, ?_, handed⟩
  · exact queued.congr (by rw [capture]) gap
  · exact latched.congr fun i hi => latch (by omega) (by omega)

end Sys2Proof.Machine
end

section
/-! SUPPORT. The arrival of a tracked access. -/
namespace Sys2Proof.Machine

/-! ### Tracked accesses (R5, R42, R43, R46) -/

/-- Without a posted delay the effect slot of the newest entry, whose number no other has, is taken at the arrival. -/
theorem State.joinList_taken (s : State) {e : Entry} (hp : e.posted = false) (hn : ∀ x ∈ s.tracker, x.number ≠ e.number) :
    s.joinList e =
      ((State.hitEffects
          { s with tracker := s.tracker ++ [s.effectEntry e], nextNumber := s.nextNumber + 1 }
          (s.effectEntry e).hits).1,
        { occurrences := s.seqHits (s.effectEntry e).hits, records := [] }) := by
  have others : s.tracker.map (fun x => if x.number == e.number then s.effectEntry e else x) = s.tracker := by
    refine (List.map_congr_left fun x hx => ?_).trans (List.map_id' s.tracker)
    simp [hn x hx]
  have listed : (s.tracker ++ [e]).map (fun x => if x.number == e.number then s.effectEntry e else x) =
      s.tracker ++ [s.effectEntry e] := by
    rw [List.map_append, others]
    simp
  have taken : State.updateEntry { s with tracker := s.tracker ++ [e], nextNumber := s.nextNumber + 1 } e.number
      (fun _ => s.effectEntry e) =
      { s with tracker := s.tracker ++ [s.effectEntry e], nextNumber := s.nextNumber + 1 } := by
    unfold State.updateEntry
    rw [← listed]
  have joined : s.joinList e =
      State.takeEffect { s with tracker := s.tracker ++ [e], nextNumber := s.nextNumber + 1 } e := by
    simp [State.joinList, hp]
  have same : State.effectEntry { s with tracker := s.tracker ++ [e], nextNumber := s.nextNumber + 1 } e =
    s.effectEntry e := rfl
  rw [joined, State.takeEffect_eq, same, taken, State.hitEffects_occurrences]
  rfl

theorem State.joinList_posted (s : State) {e : Entry} (hp : e.posted = true) :
    s.joinList e =
      ({ s with tracker := s.tracker ++ [e], nextNumber := s.nextNumber + 1 }, Offers.none) := by
  simp [State.joinList, hp]

/-- The timing of an access whose mode words are VALID (R5). -/
theorem State.timing_valid (s : State) (kind : AccessKind) {m0 : ModeWord0} {m1 : ModeWord1}
    (h0 : s.modes.word0 = some m0) (h1 : s.modes.word1 = some m1) :
    s.timing kind =
      some
        { effectSlot := s.now + m1.postedDelay.setWidth 48
          dataSlot := s.now + m1.postedDelay.setWidth 48 + (match kind with
            | .read => m0.readDelay.setWidth 48
            | .write => m1.writeDelay.setWidth 48)
          len := m0.len, order := m0.order, posted := m1.postedDelay != 0 } := by
  unfold State.timing
  rw [h0, h1]
  cases kind <;> simp only [slotPlus_toNat]

/-- Settles O16: the new entry, and without a posted delay its effect slot, beside the checker's part. -/
theorem accessIsTracked : Obligations.AccessIsTracked := by
  unfold Obligations.AccessIsTracked
  intro s kind b col ac m0 m1 hs hinv hl h0 h1 hn row effect new broken violation violations
  let c : Cmd := .access kind b col ac
  have reason : s.untrackedReason = none := by
    rw [s.untrackedReason_eq, if_neg (not_not.mpr hl), if_neg (by simp [h0, h1]), if_neg (by omega)]
  have timing := s.timing_valid kind h0 h1
  have arrives : s.trackArrival c = s.joinList new := s.trackArrival_tracked kind b col ac reason timing
  have found : (s.checked c).trackArrival c = (s.checked c).joinList new := by
    have reason' : (s.checked c).untrackedReason = none := by
      rw [s.checked_eq]
      exact reason
    have timing' : (s.checked c).timing kind = s.timing kind := by
      rw [s.checked_eq]
      rfl
    have entry : (s.checked c).newEntry = s.newEntry := by
      rw [s.checked_eq]
      rfl
    rw [State.trackArrival_tracked _ kind b col ac reason' (timing'.trans timing), entry]
    rfl
  have fresh : ∀ x ∈ s.tracker, x.number ≠ new.number := fun x hx => Nat.ne_of_lt ((s.trackerInv_iff.mp hinv).below x hx)
  have frame : (s.checked c).tracker = s.tracker ∧ (s.checked c).waiting = s.waiting ∧
      (s.checked c).nextNumber = s.nextNumber ∧ (s.checked c).windows = s.windows ∧ (s.checked c).cues = s.cues ∧
      (s.checked c).effectEntry new = s.effectEntry new := by
    rw [s.checked_eq]
    exact ⟨rfl, rfl, rfl, rfl, rfl, rfl⟩
  obtain ⟨ftracker, fwaiting, fnumber, fwindows, fcues, fentry⟩ := frame
  obtain ⟨windows, cues, ⟨tracker, waiting, number⟩⟩ := s.arrive_acts c hs
  rw [found] at windows cues tracker waiting number
  have step := exec_arrival c s
  have handed {os : List (List Occurrence)} (ho : Merges (s.trackArrival c).2.occurrences os) :=
    s.access_handedOut kind b col ac hs ho (rs := []) (by rw [arrives, State.joinList_offers]; exact .nil)
  cases hp : new.posted with
  | true =>
    have delayed : m1.postedDelay ≠ 0 := bne_iff_ne.mp hp
    rw [State.joinList_posted _ hp] at windows cues tracker waiting number
    refine ⟨_, step, number.trans (by rw [← fnumber]), waiting.trans fwaiting, fun _ =>
      ⟨tracker.trans (by rw [← ftracker]), windows.trans fwindows, cues.trans fcues, ?_⟩, fun h => absurd h delayed⟩
    refine handed (os := []) ?_
    rw [arrives, State.joinList_offers, hp]
    exact .nil
  | false =>
    have undelayed : ¬ m1.postedDelay ≠ 0 := fun h => Bool.false_ne_true (hp.symm.trans (bne_iff_ne.mpr h))
    rw [State.joinList_taken _ hp (by rw [ftracker]; exact fresh), fentry] at windows cues tracker waiting number
    have acted := (State.effect_hits { s.checked c with nextNumber := (s.checked c).nextNumber + 1 }
      ((s.checked c).tracker ++ [s.effectEntry new]) (s.effectEntry new).hits).2.1
    have hits := State.hitEffects_frame
      { s.checked c with
        tracker := (s.checked c).tracker ++ [s.effectEntry new], nextNumber := (s.checked c).nextNumber + 1 }
      (s.effectEntry new).hits
    change State.HitsActed _ (State.hitEffects
      { s.checked c with
        tracker := (s.checked c).tracker ++ [s.effectEntry new], nextNumber := (s.checked c).nextNumber + 1 }
      (s.effectEntry new).hits).1 _ at acted
    generalize State.hitEffects
      { s.checked c with
        tracker := (s.checked c).tracker ++ [s.effectEntry new], nextNumber := (s.checked c).nextNumber + 1 }
      (s.effectEntry new).hits = u at *
    have acted' : s.HitsActed u.1 [(s.effectEntry new).hits] := by
      unfold State.HitsActed at acted ⊢
      simp only [fwindows, fcues] at acted
      exact acted
    refine ⟨_, step, number.trans (by rw [hits, fnumber]), waiting.trans (by rw [hits, fwaiting]),
      fun h => absurd h undelayed, fun _ => ⟨s.effectEntry new, tracker.trans (by rw [hits, ftracker]),
        s.effectEntry_taken new, acted'.congr windows cues, ?_⟩⟩
    refine handed (os := [s.seqHits (s.effectEntry new).hits]) ?_
    rw [arrives, State.joinList_taken s hp fresh]
    exact .single _

end Sys2Proof.Machine
end

section
/-! SUPPORT. The bank and mode shadow at an arrival, whatever the command. -/
namespace Sys2Proof.Machine

/-! ### What the shadow reads -/

theorem State.setBank_sameShadow {s u : State} (h : s.SameShadow u) (b : BankNo) (e : Bank) :
    (s.setBank b e).SameShadow (u.setBank b e) := by
  obtain ⟨hchan, hbanks, hmodes⟩ := h
  exact ⟨hchan, by rw [State.setBank_banks, State.setBank_banks, hbanks], hmodes⟩

theorem State.mapBanks_sameShadow {s u : State} (h : s.SameShadow u) (f : Bank → Bank) :
    (s.mapBanks f).SameShadow (u.mapBanks f) := by
  obtain ⟨hchan, hbanks, hmodes⟩ := h
  unfold State.SameShadow
  rw [State.mapBanks_chan, State.mapBanks_chan, State.mapBanks_banks, State.mapBanks_banks, State.mapBanks_modes,
    State.mapBanks_modes, hbanks]
  exact ⟨hchan, rfl, hmodes⟩

theorem State.markDoubtful_sameShadow (s : State) (c : Cmd) : s.SameShadow (s.markDoubtful c) := by
  unfold State.markDoubtful
  split
  · exact ⟨rfl, rfl, rfl⟩
  · exact ⟨rfl, rfl, rfl⟩

/-- The shadow reads the channel, the banks, the mode words, the slot and the rule table alone. -/
theorem State.shadow_congr {s u : State} (c : Cmd) (h : s.SameShadow u) (hn : u.now = s.now)
    (hr : u.checker.rules = s.checker.rules) : (s.shadow c).SameShadow (u.shadow c) := by
  obtain ⟨hchan, hbanks, hmodes⟩ := h
  have bank (b : BankNo) : u.bank b = s.bank b := congrArg (fun v => v[b.toFin]) hbanks
  have timing (kind : AccessKind) : u.timing kind = s.timing kind := by
    unfold State.timing
    rw [hmodes, hn]
  have rule (n : Fin 22) : u.rule n = s.rule n := congrArg (fun v => v[n]) hr
  unfold State.shadow
  rw [hchan]
  cases s.chan with
  | resetHeld => exact ⟨hchan, hbanks, hmodes⟩
  | asleep =>
    cases c with
    | sleepExit => exact ⟨rfl, hbanks, hmodes⟩
    | _ => exact ⟨hchan, hbanks, hmodes⟩
  | live =>
    cases c with
    | openBank b r =>
      simp only [State.shadowLive, bank, hn]
      exact State.setBank_sameShadow ⟨hchan, hbanks, hmodes⟩ _ _
    | access kind b col ac =>
      simp only [State.shadowLive, bank, timing, rule]
      exact State.setBank_sameShadow ⟨hchan, hbanks, hmodes⟩ _ _
    | closeBank b =>
      simp only [State.shadowLive, bank, hn]
      exact State.setBank_sameShadow ⟨hchan, hbanks, hmodes⟩ _ _
    | closeAll =>
      simp only [State.shadowLive, hn]
      exact State.mapBanks_sameShadow ⟨hchan, hbanks, hmodes⟩ _
    | refresh => exact ⟨hchan, hbanks, hmodes⟩
    | modeLoad i v =>
      have loaded : u.modes.load i v = s.modes.load i v := by rw [hmodes]
      exact ⟨hchan, hbanks, loaded⟩
    | sleepEnter => exact ⟨rfl, hbanks, hmodes⟩
    | sleepExit => exact ⟨hchan, hbanks, hmodes⟩

theorem State.EventStep.sameShadow {s t : State} (h : s.EventStep t) : s.SameShadow t := by
  obtain ⟨same, -⟩ := h
  rw [same]
  exact ⟨rfl, rfl, rfl⟩

/-- The tracker's part of an arrival does not reach the shadow. -/
theorem State.trackArrival_sameShadow (s : State) (c : Cmd) : s.SameShadow (s.trackArrival c).1 := by
  cases c with
  | access kind b col ac =>
    cases h : s.untrackedReason with
    | some reason =>
      rw [s.trackArrival_untracked kind b col ac h]
      exact (s.handUntracked_step _).sameShadow
    | none =>
      cases ht : s.timing kind with
      | none =>
        rw [s.trackArrival_untimed kind b col ac h ht]
        exact ⟨rfl, rfl, rfl⟩
      | some t =>
        rw [s.trackArrival_tracked kind b col ac h ht]
        cases hp : (s.newEntry kind b col ac t).posted with
        | true =>
          rw [State.joinList_posted _ hp]
          exact ⟨rfl, rfl, rfl⟩
        | false =>
          simp only [State.joinList, hp]
          exact (State.takeEffect_step _ _).sameShadow
  | _ => exact s.markDoubtful_sameShadow _

theorem State.SameShadow.trans {s t u : State} (h : s.SameShadow t) (k : t.SameShadow u) : s.SameShadow u := by
  obtain ⟨hchan, hbanks, hmodes⟩ := h
  obtain ⟨kchan, kbanks, kmodes⟩ := k
  exact ⟨kchan.trans hchan, kbanks.trans hbanks, kmodes.trans hmodes⟩

theorem State.checked_same (s : State) (c : Cmd) : s.SameShadow (s.checked c) ∧ (s.checked c).now = s.now := by
  rw [s.checked_eq c]
  exact ⟨⟨rfl, rfl, rfl⟩, rfl⟩

/-- An arrival leaves the shadow as the shadow takes the command in the state found (R19, R65). -/
theorem State.arrive_shadow (s : State) (c : Cmd) (hs : s.Listens) : (s.shadow c).SameShadow (s.arrive c) := by
  have out := s.arrive_offerStep c hs
  have tracked := State.trackArrival_sameShadow (s.checked c) c
  have now := (s.arrived_stands c).now.trans (s.checked_same c).2
  have rules : ((s.checked c).trackArrival c).1.checker.rules = s.checker.rules := by
    rw [State.trackArrival_checker, s.checked_checker c]
  generalize ((s.checked c).trackArrival c).1 = u at *
  obtain ⟨chan, banks, modes⟩ := State.shadow_congr c ((s.checked_same c).1.trans tracked) now rules
  generalize s.arrive c = t at *
  unfold State.OfferStep at out
  rw [out]
  exact ⟨chan, banks, modes⟩

theorem State.bank_congr {s t : State} (h : t.banks = s.banks) (b : BankNo) : t.bank b = s.bank b := by
  simp only [State.bank, h]

/-! ### READ and WRITE on the bank shadow (R23, R24) -/

theorem Bank.afterAccess_timed (e : Bank) (kind : AccessKind) (ac : Bool) (t : Timing) (r w : Byte) :
    e.afterAccess kind ac (some t) r w =
      { e.stamped kind t with
        state := match e.state, ac with
          | .opened row, true => .closing row (autoCloseStamp kind t r w)
          | st, _ => st } := by
  unfold Bank.afterAccess Bank.stamped
  cases e.state <;> cases ac <;> cases kind <;> rfl

theorem Bank.afterAccess_untimed (e : Bank) (kind : AccessKind) (ac : Bool) (r w : Byte) :
    e.afterAccess kind ac none r w =
      match e.state, ac with
      | .opened _, true => { e with state := .unknown }
      | _, _ => e := by
  unfold Bank.afterAccess
  cases e.state <;> cases ac <;> rfl

theorem BurstLen.slots_eq (l : BurstLen) :
    BitVec.ofNat 48 l.slots = (match l with
      | .four => (2 : Slot)
      | .eight => 4) := by
  cases l <;> rfl

theorem BurstLen.lastSlot_eq (l : BurstLen) (a : Slot) :
    slotPlus a (l.slots - 1) = a + (match l with
      | .four => (2 : Slot)
      | .eight => 4) - 1 := by
  unfold slotPlus
  rw [BitVec.sub_eq_add_neg, BitVec.add_assoc]
  cases l <;> rfl

end Sys2Proof.Machine
end

section
/-! SUPPORT. READ and WRITE, MODE LOAD and the sleep commands on the shadow, and commands that only pass. -/
namespace Sys2Proof.Machine

theorem State.arrive_rolling (s : State) (c : Cmd) (hs : s.Listens) :
    (s.arrive c).checker.rolling = rollingAfter s c := by
  rw [s.arrive_checker c hs, s.checked_checker c]

/-- The auto-close stamps of R24. -/
theorem autoCloseStamp_read (t : Timing) (r w : Byte) :
    autoCloseStamp .read t r w = t.effectSlot + (match t.len with
      | .four => (2 : Slot)
      | .eight => 4) + r.setWidth 48 := by
  unfold autoCloseStamp
  simp only [slotPlus_toNat]
  exact congrArg (fun x => t.effectSlot + x + r.setWidth 48) t.len.slots_eq

theorem autoCloseStamp_write (t : Timing) (r w : Byte) :
    autoCloseStamp .write t r w = t.dataSlot + (match t.len with
      | .four => (2 : Slot)
      | .eight => 4) - 1 + w.setWidth 48 := by
  unfold autoCloseStamp
  simp only [slotPlus_toNat]
  exact congrArg (· + w.setWidth 48) (t.len.lastSlot_eq t.dataSlot)

theorem closing_congr (st : BankState) (ac : Bool) {x y : Slot} (h : x = y) :
    (match st, ac with
      | .opened row, true => .closing row x
      | st, _ => st) =
    (match st, ac with
      | .opened row, true => BankState.closing row y
      | st, _ => st) := by
  rw [h]

/-- Settles O15: the bank addressed by its state and auto-close, with and without a known timing. -/
theorem accessStampsItsBank : Obligations.AccessStampsItsBank := by
  unfold Obligations.AccessStampsItsBank
  intro s kind b col ac hs hl
  obtain ⟨chan, banks, modes⟩ := s.arrive_shadow (.access kind b col ac) hs
  rw [State.shadow_live s _ hl] at chan banks modes
  have own : (s.arrive (.access kind b col ac)).bank b =
      (s.bank b).afterAccess kind ac (s.timing kind) (s.rule 4).value (s.rule 5).value := by
    rw [State.bank_congr banks, State.shadowLive, State.bank_setBank_same]
  refine ⟨_, exec_arrival _ s, fun b' hb => ?_, modes, chan.trans hl, s.arrive_rolling _ hs, ?_⟩
  · rw [State.bank_congr banks, State.shadowLive, State.bank_setBank_other _ _ hb]
  rw [own]
  cases h0 : s.modes.word0 with
  | none =>
    have untimed : s.timing kind = none := by simp [State.timing, h0]
    rw [untimed]
    exact Bank.afterAccess_untimed _ _ _ _ _
  | some m0 =>
    cases h1 : s.modes.word1 with
    | none =>
      have untimed : s.timing kind = none := by simp [State.timing, h0, h1]
      rw [untimed]
      exact Bank.afterAccess_untimed _ _ _ _ _
    | some m1 =>
      rw [s.timing_valid kind h0 h1, Bank.afterAccess_timed]
      cases kind with
      | read => exact ⟨rfl, rfl, rfl, rfl, closing_congr _ _ (autoCloseStamp_read _ _ _)⟩
      | write =>
        exact ⟨rfl, rfl, rfl, congrArg some (BurstLen.lastSlot_eq _ _), closing_congr _ _ (autoCloseStamp_write _ _ _)⟩

/-! ### Commands that reach no entry in flight -/

theorem State.markDoubtful_none (s : State) {c : Cmd} (h : ∀ e, reachesPosted c e = false) : s.markDoubtful c = s := by
  unfold State.markDoubtful
  split
  · simp [h]
  · rfl

/-- A command that reaches no POSTED entry, or finds the channel not LIVE, leaves the tracker as it is (R42, R47). -/
theorem State.arrive_sameTracker (s : State) (c : Cmd) (hs : s.Listens)
    (h : s.chan ≠ .live ∨ (∀ k b col ac, c ≠ .access k b col ac) ∧ ∀ e, reachesPosted c e = false) :
    s.SameTracker (s.arrive c) := by
  obtain ⟨-, -, ⟨tracker, waiting, number⟩⟩ := s.arrive_acts c hs
  have found : s.SameTracker (s.checked c) := by
    rw [s.checked_eq]
    exact ⟨rfl, rfl, rfl⟩
  have chan := (s.checked_same c).1.1
  have kept : (s.checked c).SameTracker ((s.checked c).trackArrival c).1 := by
    generalize s.checked c = j at *
    rcases h with h | ⟨access, posted⟩
    · have marks : j.markDoubtful c = j := if_neg (by rw [chan]; exact h)
      cases c with
      | access kind b col ac =>
        have reason : j.untrackedReason = some .state := if_pos (by rw [chan]; exact h)
        rw [j.trackArrival_untracked kind b col ac reason]
        obtain ⟨r, hr⟩ : ∃ r, untrackedRecord (j.untrackedOf kind b col ac .state)
            (j.untrackedHits (j.untrackedOf kind b col ac .state)) = .access r := ⟨_, rfl⟩
        exact (j.handUntracked_acts _ hr).2.2.2
      | _ =>
        change j.SameTracker (j.markDoubtful _)
        rw [marks]
        exact ⟨rfl, rfl, rfl⟩
    · rw [j.trackArrival_notAccess c access, j.markDoubtful_none posted]
      exact ⟨rfl, rfl, rfl⟩
  obtain ⟨ftracker, fwaiting, fnumber⟩ := found
  obtain ⟨ktracker, kwaiting, knumber⟩ := kept
  exact ⟨tracker.trans (ktracker.trans ftracker), waiting.trans (kwaiting.trans fwaiting),
    number.trans (knumber.trans fnumber)⟩

/-! ### MODE LOAD (R3, R30) -/

theorem extract_toNat {w : Nat} (v : BitVec w) (start len : Nat) :
    (v.extractLsb' start len).toNat = (v >>> start).toNat % 2 ^ len := by
  rw [BitVec.extractLsb'_toNat, BitVec.toNat_ushiftRight]

theorem extract_eq (v : BitVec 16) (start len : Nat) : v.extractLsb' start len = (v >>> start).setWidth len :=
  BitVec.eq_of_toNat_eq (by rw [extract_toNat, BitVec.toNat_setWidth])

theorem masked_toNat (v : BitVec 16) (k : Nat) (m : BitVec 16) (hm : m.toNat = 2 ^ k - 1) :
    (v &&& m).toNat = v.toNat % 2 ^ k := by
  rw [BitVec.toNat_and, hm, Nat.and_two_pow_sub_one_eq_mod]

theorem burstLenOf_eq (v : BitVec 16) :
    burstLenOf (v.extractLsb' 0 2) =
      if (v &&& 3).toNat ≤ 1 then some (if v.getLsbD 0 then .eight else .four) else none := by
  have low : (v.extractLsb' 0 2).toNat = (v &&& 3).toNat := by
    rw [extract_toNat, masked_toNat v 2 3 rfl, BitVec.ushiftRight_zero]
  have bit : v.getLsbD 0 = decide ((v &&& 3).toNat % 2 = 1) := by
    rw [masked_toNat v 2 3 rfl, BitVec.getLsbD, Nat.testBit_zero, Bool.eq_iff_iff]
    simp only [decide_eq_true_iff]
    omega
  unfold burstLenOf
  rw [low, bit]
  generalize (v &&& 3).toNat = n
  match n with
  | 0 => rfl
  | 1 => rfl
  | n + 2 => simp

theorem modeWord0Of_eq (v : BitVec 16) :
    modeWord0Of v =
      if (v &&& 3).toNat ≤ 1 ∧ 4 ≤ ((v >>> 4) &&& 15).toNat ∧ ((v >>> 4) &&& 15).toNat ≤ 14 then
        some
          { len := if v.getLsbD 0 then .eight else .four
            order := if v.getLsbD 3 then .exchange else .linear
            readDelay := (v >>> 4).setWidth 4 }
      else none := by
  unfold modeWord0Of
  rw [burstLenOf_eq, extract_eq, masked_toNat (v >>> 4) 4 15 rfl]
  have delay : ((v >>> 4).setWidth 4).toNat = (v >>> 4).toNat % 2 ^ 4 := BitVec.toNat_setWidth 4 _
  by_cases hl : (v &&& 3).toNat ≤ 1
  · rw [if_pos hl]
    simp only [delay, hl, true_and]
    rfl
  · rw [if_neg hl, if_neg (fun h => hl h.1)]

theorem modeWord1Of_eq (v : BitVec 16) :
    modeWord1Of v =
      if 3 ≤ (v &&& 15).toNat ∧ (v &&& 15).toNat ≤ 13 ∧ ((v >>> 4) &&& 7).toNat ≤ 6 then
        some { writeDelay := v.setWidth 4, postedDelay := (v >>> 4).setWidth 3 }
      else none := by
  unfold modeWord1Of
  rw [extract_eq, extract_eq, masked_toNat v 4 15 rfl, masked_toNat (v >>> 4) 3 7 rfl, BitVec.ushiftRight_zero]
  have write : (v.setWidth 4).toNat = v.toNat % 2 ^ 4 := BitVec.toNat_setWidth 4 _
  have posted : ((v >>> 4).setWidth 3).toNat = (v >>> 4).toNat % 2 ^ 3 := BitVec.toNat_setWidth 3 _
  simp only [write, posted]

theorem Modes.load_words (m : Modes) (i : BitVec 2) (v : BitVec 16) :
    (m.load i v).word0 = (if i = 0 then modeWord0Of v else m.word0) ∧
    (m.load i v).word1 = (if i = 1 then modeWord1Of v else m.word1) ∧
    (m.load i v).word2 = (if i = 2 then modeWord2Of v else m.word2) := by
  have cases4 : i = 0 ∨ i = 1 ∨ i = 2 ∨ i = 3 := by
    have h := i.isLt
    rcases (by omega : i.toNat = 0 ∨ i.toNat = 1 ∨ i.toNat = 2 ∨ i.toNat = 3) with h | h | h | h
    · exact .inl (BitVec.eq_of_toNat_eq h)
    · exact .inr (.inl (BitVec.eq_of_toNat_eq h))
    · exact .inr (.inr (.inl (BitVec.eq_of_toNat_eq h)))
    · exact .inr (.inr (.inr (BitVec.eq_of_toNat_eq h)))
  rcases cases4 with rfl | rfl | rfl | rfl <;> exact ⟨rfl, rfl, rfl⟩

theorem State.shadow_refresh (s : State) : s.shadow .refresh = s := by
  unfold State.shadow
  cases s.chan <;> rfl

/-- Settles O18: what the shadow takes of each of the four, and the tracker left as it is. -/
theorem modeLoadSleepAndRefreshAct : Obligations.ModeLoadSleepAndRefreshAct := by
  unfold Obligations.ModeLoadSleepAndRefreshAct
  refine ⟨fun s i v hs => ?_, fun s hs => ⟨?_, ?_, ?_⟩⟩
  · have tracker := s.arrive_sameTracker (.modeLoad i v) hs (.inr ⟨nofun, fun e => Bool.and_false _⟩)
    obtain ⟨chan, banks, modes⟩ := s.arrive_shadow (.modeLoad i v) hs
    unfold State.shadow at chan banks modes
    refine ⟨_, exec_arrival (.modeLoad i v) s, ?_, ?_, tracker, fun hl => ?_, fun hl => ?_⟩
    · rw [banks]
      cases s.chan <;> rfl
    · rw [chan]
      cases hc : s.chan <;> simp only [State.shadowLive, hc]
    · rw [modes]
      cases hc : s.chan with
      | live => exact absurd hc hl
      | asleep => rfl
      | resetHeld => rfl
    · rw [modes, hl]
      obtain ⟨word0, word1, word2⟩ := s.modes.load_words i v
      rw [modeWord0Of_eq] at word0
      rw [modeWord1Of_eq] at word1
      exact ⟨word0, word1, word2⟩
  · have tracker := s.arrive_sameTracker .sleepEnter hs (.inr ⟨nofun, fun e => Bool.and_false _⟩)
    obtain ⟨chan, banks, modes⟩ := s.arrive_shadow .sleepEnter hs
    unfold State.shadow at chan banks modes
    refine ⟨_, exec_arrival .sleepEnter s, ?_, ?_, tracker, ?_⟩
    · rw [banks]
      cases s.chan <;> rfl
    · rw [modes]
      cases s.chan <;> rfl
    · rw [chan]
      cases hc : s.chan <;> simp [State.shadowLive, hc]
  · have tracker := s.arrive_sameTracker .sleepExit hs (.inr ⟨nofun, fun e => Bool.and_false _⟩)
    obtain ⟨chan, banks, modes⟩ := s.arrive_shadow .sleepExit hs
    unfold State.shadow at chan banks modes
    refine ⟨_, exec_arrival .sleepExit s, ?_, ?_, tracker, ?_⟩
    · rw [banks]
      cases s.chan <;> rfl
    · rw [modes]
      cases s.chan <;> rfl
    · rw [chan]
      cases hc : s.chan <;> simp [State.shadowLive, hc]
  · have tracker := s.arrive_sameTracker .refresh hs (.inr ⟨nofun, fun e => Bool.and_false _⟩)
    have shadow := s.arrive_shadow .refresh hs
    rw [s.shadow_refresh] at shadow
    exact ⟨_, exec_arrival .refresh s, shadow, tracker⟩

/-- Settles O19: the shadow, the tracker and the checker's stamps in a channel that takes no command. -/
theorem commandsThatOnlyPass : Obligations.CommandsThatOnlyPass := by
  unfold Obligations.CommandsThatOnlyPass
  refine ⟨fun s c hs h => ?_, fun s code hs => congrArg Host.Outcome.next (if_neg (by simp [hs.1, hs.2]))⟩
  have closed : s.chan ≠ .live := by
    rcases h with h | ⟨h, -⟩ <;> rw [h] <;> decide
  have passes : s.shadow c = s := by
    unfold State.shadow
    rcases h with h | ⟨h, hc⟩
    · rw [h]
    · rw [h]
      cases c with
      | sleepExit => exact absurd rfl hc
      | _ => rfl
  have shadow := s.arrive_shadow c hs
  rw [passes] at shadow
  have checker := (s.arrive_checker c hs).trans (s.checked_checker c)
  refine ⟨_, exec_arrival c s, by rw [s.arrive_fwd c hs], shadow, s.arrive_sameTracker c hs (.inl closed), ?_, ?_, ?_⟩
  · rw [checker]
    change rollingAfter s c = _
    unfold rollingAfter
    rcases h with h | ⟨h, -⟩ <;> rw [h] <;> cases c <;> rfl
  · rw [checker]
    change readEndAfter s c = _
    unfold readEndAfter
    rcases h with h | ⟨h, -⟩ <;> rw [h] <;> cases c with
    | access kind b col ac => cases kind <;> rfl
    | _ => rfl
  · rw [checker]
    change measureAfter s c = _
    unfold measureAfter
    rcases h with h | ⟨h, hc⟩
    · rw [h]
      cases c <;> rfl
    · rw [h]
      cases c with
      | sleepExit => exact absurd rfl hc
      | _ => rfl

end Sys2Proof.Machine
end

section
/-! SUPPORT. The rules of the protocol checker, each in the words of the statements. -/
namespace Sys2Proof.Machine

/-! ### Rules judged in LIVE alone (R65) -/

theorem judgedIn_live {chan : ChanState} {n : Nat} (h : n ≠ 8 ∧ n ≠ 9 ∧ n ≠ 10 ∧ n ≠ 19 ∧ n ≠ 20) :
    judgedIn chan n = true ↔ chan = .live := by
  obtain ⟨h8, h9, h10, h19, h20⟩ := h
  cases chan with
  | live => exact ⟨fun _ => rfl, fun _ => rfl⟩
  | asleep =>
    simp only [judgedIn, Bool.or_eq_true, Bool.and_eq_true, beq_iff_eq, decide_eq_true_eq]
    exact ⟨fun hj => by omega, nofun⟩
  | resetHeld =>
    simp only [judgedIn, Bool.or_eq_true, Bool.and_eq_true, beq_iff_eq, decide_eq_true_eq]
    exact ⟨fun hj => by omega, nofun⟩

/-- A rule of LIVE is broken when it is enabled, the channel is LIVE and its condition holds. -/
theorem brokenRules_live (s : State) (c : Cmd) (n : Fin 22)
    (h : n.val ≠ 8 ∧ n.val ≠ 9 ∧ n.val ≠ 10 ∧ n.val ≠ 19 ∧ n.val ≠ 20) {p : Prop}
    (hp : breaksRule s c n.val = true ↔ p) :
    (brokenRules s c).getLsbD n.val = true ↔ (s.rule n).enabled = true ∧ s.chan = .live ∧ p := by
  rw [brokenRules_getLsbD, Bool.and_eq_true, Bool.and_eq_true, State.ruleOn_eq, judgedIn_live h, hp, and_assoc]

theorem brokenRules_not (s : State) (c : Cmd) (n : Fin 22) (h : breaksRule s c n.val = false) :
    (brokenRules s c).getLsbD n.val = false := by
  rw [brokenRules_getLsbD, h, Bool.and_false]

theorem tooCloseOpt_iff (a : Option Slot) (b : Slot) (value : Byte) :
    tooCloseOpt a b value = true ↔ ∃ x, a = some x ∧ (b - x).toInt < (value.toNat : Int) := by
  cases a with
  | none => simp [tooCloseOpt]
  | some x => simp [tooCloseOpt, tooClose_iff]

/-! ### The timing of an access -/

theorem State.timing_iff (s : State) (kind : AccessKind) (t : Timing) :
    s.timing kind = some t ↔
      ∃ m0 m1, s.modes.word0 = some m0 ∧ s.modes.word1 = some m1 ∧
        t = { effectSlot := s.now + m1.postedDelay.setWidth 48
              dataSlot := s.now + m1.postedDelay.setWidth 48 + (match kind with
                | .read => m0.readDelay.setWidth 48
                | .write => m1.writeDelay.setWidth 48)
              len := m0.len, order := m0.order, posted := m1.postedDelay != 0 } := by
  cases h0 : s.modes.word0 with
  | none => simp [State.timing, h0]
  | some m0 =>
    cases h1 : s.modes.word1 with
    | none => simp [State.timing, h0, h1]
    | some m1 =>
      rw [s.timing_valid kind h0 h1]
      refine ⟨fun h => ⟨m0, m1, rfl, rfl, (Option.some.inj h).symm⟩, ?_⟩
      rintro ⟨_, _, ⟨⟩, ⟨⟩, rfl⟩
      rfl

/-! ### The latest of a list of stamps (R178) -/

theorem slotBefore_asymm {a b : Slot} (h : slotBefore a b = true) : slotBefore b a = false := by
  unfold slotBefore spacing at *
  rw [decide_eq_true_iff] at h
  rw [decide_eq_false_iff_not]
  have ab := BitVec.toInt_eq_toNat_cond (b - a)
  have ba := BitVec.toInt_eq_toNat_cond (a - b)
  have na := BitVec.toNat_sub a b
  have nb := BitVec.toNat_sub b a
  have la := a.isLt
  have lb := b.isLt
  split at ab <;> split at ba <;> omega

/-- A slot that another is, or lies before. -/
def UpTo (x y : Slot) : Prop := y = x ∨ slotBefore y x = true

theorem laterSlot_upTo {x a b : Slot} (ha : UpTo x a) (hb : UpTo x b) : UpTo x (laterSlot a b) := by
  unfold laterSlot
  split
  · exact ha
  · exact hb

theorem laterSlot_left {x b : Slot} (hb : UpTo x b) : laterSlot x b = x := by
  unfold laterSlot
  rcases hb with rfl | hb
  · exact ite_self b
  · exact if_pos hb

theorem laterSlot_right {x a : Slot} (ha : UpTo x a) : laterSlot a x = x := by
  unfold laterSlot
  rcases ha with rfl | ha
  · exact ite_self a
  · rw [slotBefore_asymm ha]
    rfl

/-- The latest of two stamps of which either may be absent. -/
def laterStamp : Option Slot → Option Slot → Option Slot
  | none, y => y
  | some a, none => some a
  | some a, some b => some (laterSlot a b)

theorem latestSlot_eq (l : List (Option Slot)) : latestSlot l = l.foldl laterStamp none := by
  unfold latestSlot
  exact congrArg (fun f => l.foldl f none) (funext fun a => funext fun x => by cases a <;> cases x <;> rfl)

theorem foldl_laterStamp_of_latest {x : Slot} (l : List (Option Slot)) (acc : Option Slot)
    (hx : acc = some x ∨ some x ∈ l) (ha : ∀ a, acc = some a → UpTo x a) (hl : ∀ y, some y ∈ l → UpTo x y) :
    l.foldl laterStamp acc = some x := by
  induction l generalizing acc with
  | nil => simpa using hx
  | cons o l ih =>
    refine ih (laterStamp acc o) ?_ ?_ fun y hy => hl y (List.mem_cons_of_mem _ hy)
    · rcases hx with rfl | hx
      · cases o with
        | none => exact .inl rfl
        | some b => exact .inl (congrArg some (laterSlot_left (hl b List.mem_cons_self)))
      · rcases List.mem_cons.mp hx with rfl | hx
        · cases acc with
          | none => exact .inl rfl
          | some a => exact .inl (congrArg some (laterSlot_right (ha a rfl)))
        · exact .inr hx
    · intro a h
      cases acc with
      | none => exact hl a (List.mem_cons.mpr (.inl h.symm))
      | some a' =>
        cases o with
        | none => exact ha a h
        | some b =>
          rw [← Option.some.inj h]
          exact laterSlot_upTo (ha a' rfl) (hl b List.mem_cons_self)

/-- A stamp that every other one is or lies before is the latest. -/
theorem latestSlot_of_latest {x : Slot} {l : List (Option Slot)} (hx : some x ∈ l)
    (hl : ∀ y, some y ∈ l → y = x ∨ 0 < (x - y).toInt) : latestSlot l = some x := by
  rw [latestSlot_eq]
  refine foldl_laterStamp_of_latest l none (.inr hx) nofun fun y hy => ?_
  exact (hl y hy).imp_right fun h => decide_eq_true h

theorem latestSlot_none {l : List (Option Slot)} (h : ∀ o ∈ l, o = none) : latestSlot l = none := by
  rw [latestSlot_eq]
  induction l with
  | nil => rfl
  | cons o l ih =>
    rw [List.foldl_cons, h o List.mem_cons_self]
    exact ih fun o' ho => h o' (List.mem_cons_of_mem _ ho)

/-! ### Banks as a list -/

theorem State.exists_bank (s : State) (p : Bank → Prop) : (∃ e ∈ s.banks.toList, p e) ↔ ∃ b, p (s.bank b) := by
  refine ⟨fun ⟨e, he, h⟩ => ?_, fun ⟨b, h⟩ => ⟨_, Vector.mem_toList_iff.mpr (Vector.getElem_mem b.isLt), h⟩⟩
  obtain ⟨i, hi, rfl⟩ := Vector.getElem_of_mem (Vector.mem_toList_iff.mp he)
  refine ⟨BitVec.ofFin ⟨i, hi⟩, h⟩

theorem State.any_bank (s : State) (p : Bank → Bool) : s.banks.toList.any p = true ↔ ∃ b, p (s.bank b) = true := by
  rw [List.any_eq_true]
  exact s.exists_bank (p · = true)

theorem State.mem_otherOpen (s : State) (b : BankNo) (o : Option Slot) :
    o ∈ (((List.finRange 16).filter fun k => k.val != b.toNat).map fun k => s.banks[k].openStamp) ↔
      ∃ b', b' ≠ b ∧ (s.bank b').openStamp = o := by
  simp only [List.mem_map, List.mem_filter, List.mem_finRange, true_and, bne_iff_ne]
  refine ⟨fun ⟨k, hk, h⟩ => ⟨BitVec.ofFin k, fun e => hk (congrArg BitVec.toNat e), h⟩, fun ⟨b', hb, h⟩ =>
    ⟨b'.toFin, fun e => hb (BitVec.eq_of_toNat_eq e), h⟩⟩

theorem State.mem_writeEnds (s : State) (o : Option Slot) :
    o ∈ s.banks.toList.map (fun e => e.lastWriteEnd) ↔ ∃ b, (s.bank b).lastWriteEnd = o := by
  rw [List.mem_map]
  exact s.exists_bank (·.lastWriteEnd = o)

/-! ### Spacing rules (R68 to R71) -/

theorem breaksOpenToAccess_iff (s : State) (c : Cmd) :
    breaksOpenToAccess s c = true ↔
      ∃ kind b col ac row stamp m0 m1,
        c = .access kind b col ac ∧ (s.bank b).state = .opened row ∧
        (s.bank b).openStamp = some stamp ∧ s.modes.word0 = some m0 ∧ s.modes.word1 = some m1 ∧
        (s.now + m1.postedDelay.setWidth 48 - stamp).toInt < ((s.rule 0).value.toNat : Int) := by
  have isOpen (e : Bank) : e.isOpen = true ↔ ∃ row, e.state = .opened row := by
    unfold Bank.isOpen
    cases e.state <;> simp
  cases c with
  | access kind b col ac =>
    cases ht : s.timing kind with
    | none =>
      have broken : breaksOpenToAccess s (.access kind b col ac) = false := by simp only [breaksOpenToAccess, ht]
      rw [broken]
      refine ⟨nofun, ?_⟩
      rintro ⟨_, _, _, _, row, stamp, m0, m1, ⟨⟩, -, -, h0, h1, -⟩
      cases ht.symm.trans (s.timing_valid kind h0 h1)
    | some t =>
      obtain ⟨m0, m1, h0, h1, rfl⟩ := (s.timing_iff kind t).mp ht
      simp only [breaksOpenToAccess, ht, Bool.and_eq_true, isOpen, tooCloseOpt_iff]
      constructor
      · rintro ⟨⟨row, hrow⟩, stamp, hstamp, hlt⟩
        exact ⟨kind, b, col, ac, row, stamp, m0, m1, rfl, hrow, hstamp, h0, h1, hlt⟩
      · rintro ⟨_, _, _, _, row, stamp, m0', m1', ⟨⟩, hrow, hstamp, h0', h1', hlt⟩
        cases h0.symm.trans h0'
        cases h1.symm.trans h1'
        exact ⟨⟨row, hrow⟩, stamp, hstamp, hlt⟩
  | _ =>
    refine ⟨nofun, ?_⟩
    rintro ⟨_, _, _, _, _, _, _, _, ⟨⟩, -⟩

theorem breaksAtClose_iff (s : State) (judge : Bank → Bool) (c : Cmd) :
    breaksAtClose s judge c = true ↔
      ∃ b, (c = .closeBank b ∨ c = .closeAll) ∧ (s.bank b).row.isSome = true ∧ judge (s.bank b) = true := by
  cases c with
  | closeBank b =>
    simp only [breaksAtClose, Bool.and_eq_true, Bank.holdsRow]
    refine ⟨fun h => ⟨b, .inl rfl, h⟩, ?_⟩
    rintro ⟨_, ⟨⟨⟩⟩ | ⟨⟨⟩⟩, h⟩
    exact h
  | closeAll =>
    refine (s.any_bank _).trans (exists_congr fun b => ?_)
    rw [Bool.and_eq_true]
    exact ⟨fun h => ⟨.inr rfl, h⟩, fun ⟨_, h⟩ => h⟩
  | _ =>
    refine ⟨nofun, ?_⟩
    rintro ⟨_, ⟨⟨⟩⟩ | ⟨⟨⟩⟩, -⟩

/-- A rule of R70 with the stamp it measures from. -/
theorem breaksAtClose_stamp_iff (s : State) (stamp : Bank → Option Slot) (n : Fin 22) (c : Cmd) :
    breaksAtClose s (fun e => tooCloseOpt (stamp e) s.now (s.rule n).value) c = true ↔
      ∃ b x, (c = .closeBank b ∨ c = .closeAll) ∧ (s.bank b).row.isSome = true ∧
        stamp (s.bank b) = some x ∧ (s.now - x).toInt < ((s.rule n).value.toNat : Int) := by
  rw [breaksAtClose_iff]
  simp only [tooCloseOpt_iff, exists_and_left]

theorem breaksCloseToOpen_iff (s : State) (c : Cmd) :
    breaksCloseToOpen s c = true ↔
      ∃ b r stamp, c = .openBank b r ∧ (s.bank b).closeStamp = some stamp ∧
        (s.now - stamp).toInt < ((s.rule 3).value.toNat : Int) := by
  cases c with
  | openBank b r =>
    simp only [breaksCloseToOpen, tooCloseOpt_iff]
    refine ⟨fun ⟨x, h⟩ => ⟨b, r, x, rfl, h⟩, ?_⟩
    rintro ⟨_, _, x, ⟨⟩, h⟩
    exact ⟨x, h⟩
  | _ =>
    refine ⟨nofun, ?_⟩
    rintro ⟨_, _, _, ⟨⟩, -⟩

theorem breaksReadToWrite_iff (s : State) (c : Cmd) :
    breaksReadToWrite s c = true ↔
      ∃ b col ac m0 m1 stamp, c = .access .write b col ac ∧ s.modes.word0 = some m0 ∧
        s.modes.word1 = some m1 ∧ s.checker.readEnd = some stamp ∧
        (s.now + m1.postedDelay.setWidth 48 + m1.writeDelay.setWidth 48 - stamp).toInt <
          ((s.rule 7).value.toNat : Int) := by
  cases c with
  | access kind b col ac =>
    cases kind with
    | read =>
      refine ⟨nofun, ?_⟩
      rintro ⟨_, _, _, _, _, _, ⟨⟩, -⟩
    | write =>
      unfold breaksReadToWrite
      cases ht : s.timing .write with
      | none =>
        refine ⟨nofun, ?_⟩
        rintro ⟨_, _, _, m0, m1, stamp, ⟨⟩, h0, h1, -⟩
        cases ht.symm.trans (s.timing_valid .write h0 h1)
      | some t =>
        obtain ⟨m0, m1, h0, h1, rfl⟩ := (s.timing_iff .write t).mp ht
        simp only [tooCloseOpt_iff]
        constructor
        · rintro ⟨stamp, hstamp, hlt⟩
          exact ⟨b, col, ac, m0, m1, stamp, rfl, h0, h1, hstamp, hlt⟩
        · rintro ⟨_, _, _, m0', m1', stamp, ⟨⟩, h0', h1', hstamp, hlt⟩
          cases h0.symm.trans h0'
          cases h1.symm.trans h1'
          exact ⟨stamp, hstamp, hlt⟩
  | _ =>
    refine ⟨nofun, ?_⟩
    rintro ⟨_, _, _, _, _, _, ⟨⟩, -⟩

/-! ### Sequence rules (R75 to R80) -/

theorem breaksAccessNotOpen_iff (s : State) (c : Cmd) :
    breaksAccessNotOpen s c = true ↔
      ∃ kind b col ac, c = .access kind b col ac ∧
        ((s.bank b).state = .closed ∨ ∃ r x, (s.bank b).state = .closing r x) := by
  cases c with
  | access kind b col ac =>
    have judged : breaksAccessNotOpen s (.access kind b col ac) = true ↔
        ((s.bank b).state = .closed ∨ ∃ r x, (s.bank b).state = .closing r x) := by
      cases hb : (s.bank b).state <;> simp [breaksAccessNotOpen, hb]
    rw [judged]
    refine ⟨fun h => ⟨kind, b, col, ac, rfl, h⟩, ?_⟩
    rintro ⟨_, _, _, _, ⟨⟩, h⟩
    exact h
  | _ =>
    refine ⟨nofun, ?_⟩
    rintro ⟨_, _, _, _, ⟨⟩, -⟩

theorem breaksOpenWhileOpen_iff (s : State) (c : Cmd) :
    breaksOpenWhileOpen s c = true ↔ ∃ b r, c = .openBank b r ∧ (s.bank b).row.isSome = true := by
  cases c with
  | openBank b r =>
    refine ⟨fun h => ⟨b, r, rfl, h⟩, ?_⟩
    rintro ⟨_, _, ⟨⟩, h⟩
    exact h
  | _ =>
    refine ⟨nofun, ?_⟩
    rintro ⟨_, _, ⟨⟩, -⟩

theorem breaksAllClosed_iff (s : State) (c : Cmd) :
    breaksAllClosed s c = true ↔
      (c = .refresh ∨ (∃ i v, c = .modeLoad i v) ∨ c = .sleepEnter) ∧ ∃ b, (s.bank b).row.isSome = true := by
  have held := s.any_bank Bank.holdsRow
  cases c with
  | refresh => exact held.trans ⟨fun h => ⟨.inl rfl, h⟩, fun h => h.2⟩
  | modeLoad i v => exact held.trans ⟨fun h => ⟨.inr (.inl ⟨i, v, rfl⟩), h⟩, fun h => h.2⟩
  | sleepEnter => exact held.trans ⟨fun h => ⟨.inr (.inr rfl), h⟩, fun h => h.2⟩
  | _ =>
    refine ⟨nofun, ?_⟩
    rintro ⟨⟨⟨⟩⟩ | ⟨_, _, ⟨⟩⟩ | ⟨⟨⟩⟩, -⟩

theorem breaksPostedClose_iff (s : State) (c : Cmd) :
    breaksPostedClose s c = true ↔
      ∃ e ∈ s.tracker, e.phase = .posted ∧ (c = .closeAll ∨ c = .closeBank e.bank ∨ ∃ r, c = .openBank e.bank r) := by
  have reached (e : Entry) : reachesPosted c e = true ↔
      e.phase = .posted ∧ (c = .closeAll ∨ c = .closeBank e.bank ∨ ∃ r, c = .openBank e.bank r) := by
    cases c with
    | openBank b r =>
      refine (reachesPosted_openBank b r e).trans (and_congr Iff.rfl ⟨fun h => .inr (.inr ⟨r, by rw [h]⟩), ?_⟩)
      rintro (⟨⟨⟩⟩ | ⟨⟨⟩⟩ | ⟨_, ⟨⟩⟩)
      rfl
    | closeBank b =>
      refine (reachesPosted_closeBank b e).trans (and_congr Iff.rfl ⟨fun h => .inr (.inl (by rw [h])), ?_⟩)
      rintro (⟨⟨⟩⟩ | ⟨⟨⟩⟩ | ⟨_, ⟨⟩⟩)
      rfl
    | closeAll => exact (reachesPosted_closeAll e).trans ⟨fun h => ⟨h, .inl rfl⟩, fun h => h.1⟩
    | _ =>
      refine ⟨fun h => absurd (h.symm.trans (Bool.and_false _)) (by decide), fun ⟨_, h⟩ => ?_⟩
      rcases h with h | h | ⟨_, h⟩ <;> cases h
  simp only [breaksPostedClose, List.any_eq_true, reached]

theorem windowsOverlap_iff (d : Slot) (len : BurstLen) (d' : Slot) (len' : BurstLen) :
    windowsOverlap d len d' len' = true ↔
      (d' - d).toInt < (len.beats / 2 : Nat) ∧ (d - d').toInt < (len'.beats / 2 : Nat) := by
  rw [windowsOverlap, Bool.and_eq_true, decide_eq_true_iff, decide_eq_true_iff]
  rfl

theorem legalCut_iff (kind : AccessKind) (d : Slot) (e : Entry) :
    legalCut kind d e = true ↔ e.kind = kind ∧ e.len = .eight ∧ e.autoClose = false ∧ d = e.dataSlot + 2 := by
  simp only [legalCut, Bool.and_eq_true, beq_iff_eq, Bool.not_eq_true', and_assoc]
  rfl

theorem breaksCutIllegal_iff (s : State) (c : Cmd) (hl : s.chan = .live) :
    breaksCutIllegal s c = true ↔
      s.tracker.length < 8 ∧
      ∃ kind b col ac m0 m1, c = .access kind b col ac ∧ s.modes.word0 = some m0 ∧
        s.modes.word1 = some m1 ∧
        let d : Slot := s.now + m1.postedDelay.setWidth 48 + (match kind with
          | .read => m0.readDelay.setWidth 48
          | .write => m1.writeDelay.setWidth 48)
        ∃ e ∈ s.tracker,
          ((e.dataSlot - d).toInt < (m0.len.beats / 2 : Nat) ∧
            (d - e.dataSlot).toInt < (e.len.beats / 2 : Nat)) ∧
          ¬ (e.kind = kind ∧ e.len = .eight ∧ e.autoClose = false ∧ d = e.dataSlot + 2) := by
  cases c with
  | access kind b col ac =>
    by_cases hn : s.tracker.length < 8
    · cases ht : s.timing kind with
      | none =>
        have broken : breaksCutIllegal s (.access kind b col ac) = false := by
          unfold breaksCutIllegal
          simp only [ht]
          cases s.untrackedReason <;> rfl
        rw [broken]
        refine ⟨nofun, ?_⟩
        rintro ⟨-, _, _, _, _, m0, m1, ⟨⟩, h0, h1, -⟩
        cases ht.symm.trans (s.timing_valid kind h0 h1)
      | some t =>
        obtain ⟨m0, m1, h0, h1, rfl⟩ := (s.timing_iff kind t).mp ht
        have reason : s.untrackedReason = none := by
          rw [s.untrackedReason_eq, if_neg (not_not.mpr hl), if_neg (by simp [h0, h1]), if_neg (by omega)]
        unfold breaksCutIllegal
        simp only [reason, ht, List.any_eq_true, Bool.and_eq_true, windowsOverlap_iff, Bool.not_eq_true',
          ← Bool.not_eq_true, legalCut_iff]
        constructor
        · rintro ⟨e, he, h⟩
          exact ⟨hn, kind, b, col, ac, m0, m1, rfl, h0, h1, e, he, h⟩
        · rintro ⟨-, _, _, _, _, m0', m1', ⟨⟩, h0', h1', e, he, h⟩
          cases h0.symm.trans h0'
          cases h1.symm.trans h1'
          exact ⟨e, he, h⟩
    · have broken : breaksCutIllegal s (.access kind b col ac) = false := by
        have reason : s.untrackedReason ≠ none := by
          rw [s.untrackedReason_eq, if_neg (not_not.mpr hl)]
          split
          · nofun
          · rw [if_pos (by omega)]
            nofun
        unfold breaksCutIllegal
        cases hr : s.untrackedReason with
        | none => exact absurd hr reason
        | some r => rfl
      rw [broken]
      exact ⟨nofun, fun h => absurd h.1 hn⟩
  | _ =>
    refine ⟨nofun, ?_⟩
    rintro ⟨-, _, _, _, _, _, _, ⟨⟩, -⟩

theorem BitVec2.cases (i : BitVec 2) : i = 0 ∨ i = 1 ∨ i = 2 ∨ i = 3 := by
  have h := i.isLt
  rcases (by omega : i.toNat = 0 ∨ i.toNat = 1 ∨ i.toNat = 2 ∨ i.toNat = 3) with h | h | h | h
  · exact .inl (BitVec.eq_of_toNat_eq h)
  · exact .inr (.inl (BitVec.eq_of_toNat_eq h))
  · exact .inr (.inr (.inl (BitVec.eq_of_toNat_eq h)))
  · exact .inr (.inr (.inr (BitVec.eq_of_toNat_eq h)))

theorem modeLoadInRange_iff (i : BitVec 2) (v : BitVec 16) :
    modeLoadInRange i v = false ↔ (i = 0 ∧ modeWord0Of v = none) ∨ (i = 1 ∧ modeWord1Of v = none) ∨ i = 3 := by
  rcases BitVec2.cases i with rfl | rfl | rfl | rfl <;> simp [modeLoadInRange, modeWord2Of]

theorem breaksModeValue_iff (c : Cmd) :
    breaksModeValue c = true ↔
      ∃ i v, c = .modeLoad i v ∧ ((i = 0 ∧ modeWord0Of v = none) ∨ (i = 1 ∧ modeWord1Of v = none) ∨ i = 3) := by
  cases c with
  | modeLoad i v =>
    rw [breaksModeValue, Bool.not_eq_true', modeLoadInRange_iff]
    refine ⟨fun h => ⟨i, v, rfl, h⟩, ?_⟩
    rintro ⟨_, _, ⟨⟩, h⟩
    exact h
  | _ =>
    refine ⟨nofun, ?_⟩
    rintro ⟨_, _, ⟨⟩, -⟩

theorem isEmpty_not_iff (l : List Entry) : (!l.isEmpty) = true ↔ l ≠ [] := by
  cases l <;> simp

theorem breaksModeBusy_iff (s : State) (c : Cmd) :
    breaksModeBusy s c = true ↔ (∃ i v, c = .modeLoad i v) ∧ s.tracker ≠ [] := by
  cases c with
  | modeLoad i v => exact (isEmpty_not_iff _).trans ⟨fun h => ⟨⟨i, v, rfl⟩, h⟩, fun h => h.2⟩
  | _ =>
    refine ⟨nofun, ?_⟩
    rintro ⟨⟨_, _, ⟨⟩⟩, -⟩

theorem breaksSleepBusy_iff (s : State) (c : Cmd) :
    breaksSleepBusy s c = true ↔ c = .sleepEnter ∧ s.tracker ≠ [] := by
  cases c with
  | sleepEnter => exact (isEmpty_not_iff _).trans ⟨fun h => ⟨rfl, h⟩, fun h => h.2⟩
  | _ =>
    refine ⟨nofun, ?_⟩
    rintro ⟨⟨⟩, -⟩

theorem brokenRules_asleep (s : State) (c : Cmd) :
    (brokenRules s c).getLsbD 19 = true ↔
      (s.rule 19).enabled = true ∧ (s.chan = .asleep ∧ c ≠ .sleepExit ∨ s.chan = .live ∧ c = .sleepExit) := by
  have judged : judgedIn s.chan 19 = true ∧ breaksCmdAsleep s c = true ↔
      (s.chan = .asleep ∧ c ≠ .sleepExit ∨ s.chan = .live ∧ c = .sleepExit) := by
    unfold breaksCmdAsleep
    cases s.chan <;> simp [judgedIn]
  have at_rule := brokenRules_getLsbD s c 19
  rw [show (brokenRules s c).getLsbD 19 = _ from at_rule, Bool.and_eq_true, Bool.and_eq_true, State.ruleOn_eq, and_assoc]
  exact and_congr Iff.rfl judged

theorem brokenRules_inReset (s : State) (c : Cmd) :
    (brokenRules s c).getLsbD 20 = true ↔ (s.rule 20).enabled = true ∧ s.chan = .resetHeld := by
  have judged : judgedIn s.chan 20 = true ∧ breaksCmdInReset s = true ↔ s.chan = .resetHeld := by
    unfold breaksCmdInReset
    cases s.chan <;> simp [judgedIn]
  have at_rule := brokenRules_getLsbD s c 20
  rw [show (brokenRules s c).getLsbD 20 = _ from at_rule, Bool.and_eq_true, Bool.and_eq_true, State.ruleOn_eq, and_assoc]
  exact and_congr Iff.rfl judged

end Sys2Proof.Machine
end

section
/-! SUPPORT. The rules of the protocol checker settled, and the read data end stamp. -/
namespace Sys2Proof.Machine

/-! ### C2 and C7, measured from the latest stamp (R69, R71) -/

theorem breaksOpenToOpen_none (s : State) (b : BankNo) (r : Row) (h : ∀ b', b' ≠ b → (s.bank b').openStamp = none) :
    breaksOpenToOpen s (.openBank b r) = false := by
  have latest : s.latestOtherOpen b = none := by
    refine latestSlot_none fun o ho => ?_
    obtain ⟨b', hb, rfl⟩ := (s.mem_otherOpen b o).mp ho
    exact h b' hb
  rw [breaksOpenToOpen, latest]
  rfl

theorem breaksOpenToOpen_latest (s : State) (b : BankNo) (r : Row) {b' : BankNo} {x : Slot} (hb : b' ≠ b)
    (hx : (s.bank b').openStamp = some x)
    (hl : ∀ b'' y, b'' ≠ b → (s.bank b'').openStamp = some y → y = x ∨ 0 < (x - y).toInt) :
    breaksOpenToOpen s (.openBank b r) = true ↔ (s.now - x).toInt < ((s.rule 1).value.toNat : Int) := by
  have latest : s.latestOtherOpen b = some x := by
    refine latestSlot_of_latest ((s.mem_otherOpen b _).mpr ⟨b', hb, hx⟩) fun y hy => ?_
    obtain ⟨b'', hb'', hy⟩ := (s.mem_otherOpen b _).mp hy
    exact hl b'' y hb'' hy
  rw [breaksOpenToOpen, latest]
  exact tooClose_iff _ _ _

theorem breaksOpenToOpen_openBank {s : State} {c : Cmd} (h : breaksOpenToOpen s c = true) : ∃ b r, c = .openBank b r := by
  cases c with
  | openBank b r => exact ⟨b, r, rfl⟩
  | _ => cases h

theorem breaksWriteToRead_none (s : State) (b : BankNo) (col : Col) (ac : Bool)
    (h : s.modes.word0 = none ∨ s.modes.word1 = none ∨ ∀ b', (s.bank b').lastWriteEnd = none) :
    breaksWriteToRead s (.access .read b col ac) = false := by
  cases ht : s.timing .read with
  | none => simp only [breaksWriteToRead, ht]
  | some t =>
    obtain ⟨m0, m1, h0, h1, -⟩ := (s.timing_iff .read t).mp ht
    rcases h with h | h | h
    · cases h.symm.trans h0
    · cases h.symm.trans h1
    · have latest : s.latestWriteEnd = none := by
        refine latestSlot_none fun o ho => ?_
        obtain ⟨b', rfl⟩ := (s.mem_writeEnds o).mp ho
        exact h b'
      simp only [breaksWriteToRead, ht, latest, tooCloseOpt]

theorem breaksWriteToRead_latest (s : State) (b : BankNo) (col : Col) (ac : Bool) {b' : BankNo} {x : Slot}
    {m0 : ModeWord0} {m1 : ModeWord1} (h0 : s.modes.word0 = some m0) (h1 : s.modes.word1 = some m1)
    (hx : (s.bank b').lastWriteEnd = some x)
    (hl : ∀ b'' y, (s.bank b'').lastWriteEnd = some y → y = x ∨ 0 < (x - y).toInt) :
    breaksWriteToRead s (.access .read b col ac) = true ↔
      (s.now + m1.postedDelay.setWidth 48 - x).toInt < ((s.rule 6).value.toNat : Int) := by
  have latest : s.latestWriteEnd = some x := by
    refine latestSlot_of_latest ((s.mem_writeEnds _).mpr ⟨b', hx⟩) fun y hy => ?_
    obtain ⟨b'', hy⟩ := (s.mem_writeEnds _).mp hy
    exact hl b'' y hy
  simp only [breaksWriteToRead, s.timing_valid .read h0 h1, latest]
  exact tooClose_iff _ _ _

theorem breaksWriteToRead_read {s : State} {c : Cmd} (h : breaksWriteToRead s c = true) :
    ∃ b col ac, c = .access .read b col ac := by
  cases c with
  | access kind b col ac =>
    cases kind with
    | read => exact ⟨b, col, ac, rfl⟩
    | write => cases h
  | _ => cases h

/-- A rule of LIVE whose condition is met by one kind of command only. -/
theorem brokenRules_command {s : State} {c : Cmd} (n : Fin 22) (h : (brokenRules s c).getLsbD n.val = true) :
    breaksRule s c n.val = true := by
  rw [brokenRules_getLsbD, Bool.and_eq_true] at h
  exact h.2

/-! ### The read data end stamp (R67) -/

theorem readEndAfter_other (s : State) (c : Cmd)
    (h : (∀ b col ac, c ≠ .access .read b col ac) ∨ s.chan ≠ .live ∨ s.modes.word0 = none ∨ s.modes.word1 = none) :
    readEndAfter s c = s.checker.readEnd := by
  cases c with
  | access kind b col ac =>
    cases kind with
    | write => rfl
    | read =>
      cases hl : s.chan with
      | asleep => simp only [readEndAfter, hl]
      | resetHeld => simp only [readEndAfter, hl]
      | live =>
        cases ht : s.timing .read with
        | none => simp only [readEndAfter, hl, ht]
        | some t =>
          obtain ⟨m0, m1, h0, h1, -⟩ := (s.timing_iff .read t).mp ht
          rcases h with h | h | h | h
          · exact absurd rfl (h b col ac)
          · exact absurd hl h
          · cases h.symm.trans h0
          · cases h.symm.trans h1
  | _ => rfl

theorem readEndAfter_read (s : State) (b : BankNo) (col : Col) (ac : Bool) {m0 : ModeWord0} {m1 : ModeWord1}
    (hl : s.chan = .live) (h0 : s.modes.word0 = some m0) (h1 : s.modes.word1 = some m1) :
    let new : Slot := s.now + m1.postedDelay.setWidth 48 + m0.readDelay.setWidth 48 + BitVec.ofNat 48 (m0.len.beats / 2)
    readEndAfter s (.access .read b col ac) =
      match s.checker.readEnd with
      | none => some new
      | some held => if 0 < (held - new).toInt then some held else some new := by
  intro new
  have timing := s.timing_valid .read h0 h1
  cases hr : s.checker.readEnd with
  | none => simp only [readEndAfter, hl, timing, hr, Timing.endSlot, slotPlus, BurstLen.slots, new]
  | some held =>
    simp only [readEndAfter, hl, timing, hr]
    change some (laterSlot held new) = if 0 < (held - new).toInt then some held else some new
    unfold laterSlot slotBefore spacing
    by_cases h : 0 < (held - new).toInt
    · rw [if_pos (decide_eq_true h), if_pos h]
    · rw [if_neg (fun hd => h (of_decide_eq_true hd)), if_neg h]

/-- Settles O23, rule by rule. -/
theorem rulesAreJudged : Obligations.RulesAreJudged := by
  unfold Obligations.RulesAreJudged
  refine ⟨fun s c => ?_, fun s b r => ⟨fun h => ?_, fun b' x hb hx hl => ?_⟩, fun s c => ⟨fun h => ?_, ?_, ?_, ?_, ?_⟩,
    fun s b col ac => ⟨fun h => ?_, fun b' x m0 m1 h0 h1 hx hl => ?_⟩,
    fun s c => ⟨fun h => ?_, ?_, ?_, ?_, ?_, ?_, ?_, ?_, ?_, ?_, ?_, ?_⟩, fun s c hs => ?_⟩
  · exact brokenRules_live s c 0 (by decide) (breaksOpenToAccess_iff s c)
  · exact brokenRules_not s _ 1 (breaksOpenToOpen_none s b r h)
  · exact brokenRules_live s _ 1 (by decide) (breaksOpenToOpen_latest s b r hb hx hl)
  · exact breaksOpenToOpen_openBank (brokenRules_command 1 h)
  · exact brokenRules_live s c 2 (by decide) (breaksAtClose_stamp_iff s Bank.openStamp 2 c)
  · exact brokenRules_live s c 3 (by decide) (breaksCloseToOpen_iff s c)
  · exact brokenRules_live s c 4 (by decide) (breaksAtClose_stamp_iff s Bank.lastReadEffect 4 c)
  · exact brokenRules_live s c 5 (by decide) (breaksAtClose_stamp_iff s Bank.lastWriteEnd 5 c)
  · exact brokenRules_not s _ 6 (breaksWriteToRead_none s b col ac h)
  · exact brokenRules_live s _ 6 (by decide) (breaksWriteToRead_latest s b col ac h0 h1 hx hl)
  · exact breaksWriteToRead_read (brokenRules_command 6 h)
  · exact brokenRules_live s c 7 (by decide) (breaksReadToWrite_iff s c)
  · exact brokenRules_live s c 12 (by decide) (breaksAccessNotOpen_iff s c)
  · exact brokenRules_live s c 13 (by decide) (breaksOpenWhileOpen_iff s c)
  · exact brokenRules_live s c 14 (by decide) (breaksAllClosed_iff s c)
  · exact brokenRules_live s c 15 (by decide) (breaksPostedClose_iff s c)
  · refine (brokenRules_live s c 16 (by decide) Iff.rfl).trans (and_congr Iff.rfl (and_congr_right fun hl => ?_))
    exact breaksCutIllegal_iff s c hl
  · exact brokenRules_live s c 17 (by decide) (breaksModeValue_iff c)
  · exact brokenRules_live s c 18 (by decide) (breaksModeBusy_iff s c)
  · exact brokenRules_asleep s c
  · exact brokenRules_inReset s c
  · exact brokenRules_live s c 21 (by decide) (breaksSleepBusy_iff s c)
  · have readEnd : (s.arrive c).checker.readEnd = readEndAfter s c := by
      rw [s.arrive_checker c hs, s.checked_checker c]
    refine ⟨_, exec_arrival c s, fun h => readEnd.trans (readEndAfter_other s c h), ?_⟩
    rintro b col ac m0 m1 rfl hl h0 h1
    exact readEnd.trans (readEndAfter_read s b col ac hl h0 h1)

end Sys2Proof.Machine
end

section
/-! SUPPORT. Beats received, taken back and resolved void. -/
namespace Sys2Proof.Machine

/-! ### The notes of the slot through the tracker's events -/

theorem State.retireAccount_turns (s : State) (e : Entry) : (s.retireAccount e).1.turns = s.turns := by
  rcases s.retireAccount_cases e with ⟨-, -, -, h⟩ | ⟨-, ⟨r, -, h⟩ | ⟨-, h⟩⟩ <;> rw [h]
  rw [(s.report_step r).1]

theorem State.handing_turns (s : State) (e : Entry) (o : RetireOutcome) : (s.handing e o).1.turns = s.turns := by
  unfold State.handing
  rw [State.retireAccount_turns, (State.offerAccess_step _ _ _).1, s.hitEffects_frame]

theorem State.retire_turns (s : State) (e : Entry) (o : RetireOutcome) : (s.retire e o).turns = s.turns := by
  rw [s.retire_eq, State.handOut_offerStep]
  exact State.handing_turns _ e o

theorem State.dataStep_turns (s : State) (n : Nat) : (s.dataStep n).turns = s.turns := by
  have retired (t : State) (e : Entry) (o : RetireOutcome) (h : t.turns = s.turns) : (t.retire e o).turns = s.turns :=
    (t.retire_turns e o).trans h
  unfold State.dataStep
  split
  · rfl
  · split
    · split
      · rfl
      · split
        · rfl
        · split
          · exact retired _ _ _ rfl
          · split
            · exact retired _ _ _ rfl
            · split
              · exact retired _ _ _ rfl
              · exact retired _ _ _ rfl
    · rfl

theorem State.allData_turns (s : State) : s.allData.turns = s.turns := by
  have fold (l : List Nat) (t : State) : (l.foldl State.dataStep t).turns = t.turns := by
    induction l generalizing t with
    | nil => rfl
    | cons n l ih => exact (ih _).trans (t.dataStep_turns n)
  exact fold _ s

theorem State.resolveVoid_turns (s : State) (kind : AccessKind) : (s.resolveVoid kind).turns = s.turns := by
  unfold State.resolveVoid
  split <;> rfl

theorem State.settleHolder_turns (s : State) : s.settleHolder.turns = s.turns :=
  (State.allData_turns _).trans (s.resolveVoid_turns .read)

/-- Settling the holder keeps the list whole. -/
theorem State.settleHolder_trackerInv {s : State} (h : s.TrackerInv) : s.settleHolder.TrackerInv :=
  (s.settleHolder_changes (I := s.TrackerInv) (K := fun _ => True) ⟨⟨trivial, trivial, trivial⟩, trivial, trivial, trivial⟩
    fun h => h).trackerInv h

theorem State.allData_trackerInv {s : State} (h : s.TrackerInv) : s.allData.TrackerInv :=
  (s.allData_changes (I := s.TrackerInv) (K := fun _ => True) ⟨⟨trivial, trivial, trivial⟩, trivial, trivial, trivial⟩
    fun h => h).trackerInv h

/-! ### An entry changed by its number -/

theorem State.entry?_updateEntry {s : State} (hs : s.TrackerInv) {e : Entry} (h : e ∈ s.tracker) (f : Entry → Entry)
    (hn : (f e).number = e.number) : (s.updateEntry e.number f).entry? e.number = some (f e) := by
  rw [s.updateEntry_replaced hs h]
  exact find?_replaced h hn

theorem State.openHolder_mem {s : State} {kind : AccessKind} {t : Slot} {e : Entry} (h : s.openHolder kind t = some e) :
    e ∈ s.tracker ∧ e.kind = kind := by
  obtain ⟨mem, -, -⟩ := State.openHolder_room h
  obtain ⟨-, hk, -⟩ := State.openHolder_eq_some.mp h
  exact ⟨mem, hk⟩

theorem satisfiedBy_congr {v w : Vector Window 16} (h : ∀ k : Fin 16, v[k].fields = w[k].fields) (c : WindowSet)
    (g : Option Burst) (i : Nat) (data : BeatData) : satisfiedBy v c g i data = satisfiedBy w c g i data :=
  WindowSet.ext fun k => by rw [Bool.eq_iff_iff, satisfiedBy_iff, satisfiedBy_iff, h k]

/-- What the two beats attributed give an entry (R50, R51, R96). -/
theorem Entry.attribute_fields (windows : Vector Window 16) (e : Entry) (b0 b1 : WriteBeat) :
    (e.attribute windows b0 b1).number = e.number ∧ (e.attribute windows b0 b1).beatsSeen = e.beatsSeen + 2 ∧
    (e.attribute windows b0 b1).doubtful = e.doubtful ∧
    (e.attribute windows b0 b1).captured =
      e.captured.map (· ++ [e.element e.beatsSeen b0, e.element (e.beatsSeen + 1) b1]) ∧
    (e.attribute windows b0 b1).satisfied =
      e.satisfied ||| satisfiedBy windows e.candidates e.burst e.beatsSeen b0.data |||
        satisfiedBy windows e.candidates e.burst (e.beatsSeen + 1) b1.data :=
  ⟨rfl, rfl, rfl, rfl, (BitVec.or_assoc _ _ _).symm⟩

theorem Entry.element_write {e : Entry} (h : e.kind = .write) (i : Nat) (b : WriteBeat) :
    e.element i b =
      { position := i, column := beatColumn e.map e.len e.order e.column i, data := b.data, mask := some b.mask } := by
  simp [Entry.element, h]

theorem Entry.element_read {e : Entry} (h : e.kind = .read) (i : Nat) (b : WriteBeat) :
    e.element i b =
      { position := i, column := beatColumn e.map e.len e.order e.column i, data := b.data, mask := none } := by
  simp [Entry.element, h]

/-! ### Write beats (R10, R12, R50) -/

theorem State.takeBack_none {s : State} (h : s.turns.readTaken = none) :
    s.takeBack =
      { s with fwd := { s.fwd with rxRead := none }, turns := { s.turns with readTaken := none } } := by
  simp [State.takeBack, h]

theorem State.takeBack_some {s : State} {n : Nat} {sat : WindowSet} (h : s.turns.readTaken = some (n, sat)) :
    s.takeBack =
      State.updateEntry { s with fwd := { s.fwd with rxRead := none }, turns := { s.turns with readTaken := none } } n
        (Entry.withoutBeats sat) := by
  simp [State.takeBack, h]

theorem State.takeBack_fields (s : State) :
    s.takeBack.fwd = { s.fwd with rxRead := none } ∧ s.takeBack.turns = { s.turns with readTaken := none } ∧
    s.takeBack.now = s.now ∧ s.takeBack.windows = s.windows := by
  cases h : s.turns.readTaken with
  | none =>
    rw [State.takeBack_none h]
    exact ⟨rfl, rfl, rfl, rfl⟩
  | some x =>
    rw [State.takeBack_some (n := x.1) (sat := x.2) h]
    exact ⟨rfl, rfl, rfl, rfl⟩

theorem State.takeBack_trackerInv {s : State} (h : s.TrackerInv) : s.takeBack.TrackerInv :=
  (s.takeBack_changes (I := s.TrackerInv) (K := fun _ => True) trivial trivial).trackerInv h

theorem State.receiveWrite_stray {s : State} (b0 b1 : WriteBeat) (h : s.openHolder .write s.now = none) :
    s.receiveWrite b0 b1 =
      { s with
        fwd :=
          { s.fwd with
            rxWrite := some
              { first := { beat := b0, guard := 0 }, second := { beat := b1, guard := 0 }, source := none } }
        turns := { s.turns with writeBeats := true } } := by
  simp [State.receiveWrite, h]

theorem State.receiveWrite_held {s : State} (b0 b1 : WriteBeat) {e : Entry} (h : s.openHolder .write s.now = some e) :
    s.receiveWrite b0 b1 =
      { s.updateEntry e.number fun x => x.attribute s.windows b0 b1 with
        fwd :=
          { s.fwd with
            rxWrite := some
              { first := { beat := b0, guard := e.guard.getD e.beatsSeen 0 }
                second := { beat := b1, guard := e.guard.getD (e.beatsSeen + 1) 0 }
                source := some (e.number, e.beatsSeen) } }
        turns := { s.turns with writeBeats := true } } := by
  simp only [State.receiveWrite, h]
  rfl

/-- What taking beats back and settling the holder leave of the pins, the notes of the slot and the windows. -/
theorem State.settled_fields (s : State) :
    s.takeBack.settleHolder.fwd = { s.fwd with rxRead := none } ∧
    s.takeBack.settleHolder.turns = { s.turns with readTaken := none } ∧ s.takeBack.settleHolder.now = s.now ∧
    ∀ k : Fin 16, s.takeBack.settleHolder.windows[k].fields = s.windows[k].fields := by
  obtain ⟨fwd, turns, now, windows⟩ := s.takeBack_fields
  obtain ⟨same, -, -, -, fields, -⟩ := s.takeBack.settleHolder_step
  refine ⟨?_, s.takeBack.settleHolder_turns.trans turns, ?_, fun k => ?_⟩
  · rw [same]
    exact fwd
  · rw [same]
    exact now
  · rw [(fields k).1, windows]

/-- Settles O29: the read beats taken back, the holder settled, and the beats received by it or stray. -/
theorem writeBeatsAreAttributed : Obligations.WriteBeatsAreAttributed := by
  unfold Obligations.WriteBeatsAreAttributed
  intro s d0 d1 m0 m1 hp hw hs hd back u
  refine ⟨fun hr => ?_, fun n sat e hr he => ?_, ?_⟩
  · change s.takeBack.tracker = _
    rw [State.takeBack_none hr]
  · obtain ⟨mem, rfl⟩ := State.entry?_mem he
    change s.takeBack.entry? e.number = _
    rw [State.takeBack_some hr]
    exact State.entry?_updateEntry
      (s := { s with fwd := { s.fwd with rxRead := none }, turns := { s.turns with readTaken := none } })
      hs mem (Entry.withoutBeats sat) rfl
  · have whole : u.TrackerInv := State.settleHolder_trackerInv (State.takeBack_trackerInv hs)
    obtain ⟨fwd, turns, now, fields⟩ := s.settled_fields
    have step : exec (.writeBeatReceive d0 m0 d1 m1) s =
        .next (u.receiveWrite { data := d0, mask := m0 } { data := d1, mask := m1 }) := by
      rw [exec_up (c := .writeBeatReceive d0 m0 d1 m1) (f := fun t =>
        if t.turns.writeBeats ∨ t.directionFixed = true then t
        else t.takeBack.settleHolder.receiveWrite { data := d0, mask := m0 } { data := d1, mask := m1 }) rfl hp]
      exact congrArg Host.Outcome.next (if_neg (by simp [hw, hd]))
    change u.fwd = _ at fwd
    change u.turns = _ at turns
    change u.now = _ at now
    change ∀ k : Fin 16, u.windows[k].fields = _ at fields
    clear_value u
    rw [← now]
    refine ⟨_, step, ?_⟩
    cases hh : u.openHolder .write u.now with
    | none =>
      rw [State.receiveWrite_stray _ _ hh, turns, fwd]
      exact ⟨rfl, rfl, rfl, rfl, rfl, rfl⟩
    | some e =>
      obtain ⟨mem, hk⟩ := State.openHolder_mem hh
      have entry := State.entry?_updateEntry whole mem
        (fun x => x.attribute u.windows { data := d0, mask := m0 } { data := d1, mask := m1 }) rfl
      obtain ⟨-, seen, doubtful, captured, satisfied⟩ :=
        e.attribute_fields u.windows { data := d0, mask := m0 } { data := d1, mask := m1 }
      rw [Entry.element_write hk, Entry.element_write hk] at captured
      rw [satisfiedBy_congr fields, satisfiedBy_congr fields] at satisfied
      rw [State.receiveWrite_held _ _ hh, turns, fwd]
      exact ⟨rfl, rfl, rfl, rfl, rfl, _, entry, seen, doubtful, captured, satisfied⟩

/-! ### Read beats (R4, R9, R12, R50) -/

theorem State.receiveRead_free {s : State} (d0 d1 : BeatData) (h : s.openHolder .read (s.now - 1) = none) :
    s.receiveRead d0 d1 =
      { s with
        fwd := { s.fwd with rxRead := some (d0, d1) }
        turns := { s.turns with readBeats := true, readTaken := none } } := by
  simp only [State.receiveRead, h, Option.map_none]

theorem State.receiveRead_held {s : State} (d0 d1 : BeatData) {e : Entry} (h : s.openHolder .read (s.now - 1) = some e) :
    s.receiveRead d0 d1 =
      { s.updateEntry e.number fun x => x.attribute s.windows { data := d0, mask := 0 } { data := d1, mask := 0 } with
        fwd := { s.fwd with rxRead := some (d0, d1) }
        turns := { s.turns with readBeats := true, readTaken := some (e.number, e.satisfied) } } := by
  simp only [State.receiveRead, h, Option.map_some]
  rfl

theorem exec_readBeatReceive (s : State) (strobe : Bool) (d0 d1 : BeatData) (hp : s.porst = false)
    (hr : s.turns.readBeats = false) :
    exec (.readBeatReceive strobe d0 d1) s =
      .next (if strobe = true ∨ s.turns.writeBeats = true then { s with turns := { s.turns with readBeats := true } }
        else s.receiveRead d0 d1) := by
  rw [exec_up (c := .readBeatReceive strobe d0 d1) (f := fun t =>
    if t.turns.readBeats then t
    else if strobe ∨ t.turns.writeBeats then { t with turns := { t.turns with readBeats := true } }
    else t.receiveRead d0 d1) rfl hp]
  exact congrArg Host.Outcome.next (if_neg (by simp [hr]))

/-- Settles O30: the beats dropped for a strobe, and those that a READ takes or none does. -/
theorem readBeatsAreAttributed : Obligations.ReadBeatsAreAttributed := by
  unfold Obligations.ReadBeatsAreAttributed
  intro s strobe d0 d1 hp hr hs
  have step := exec_readBeatReceive s strobe d0 d1 hp hr
  refine ⟨fun h => step.trans (congrArg Host.Outcome.next (if_pos h)), fun h1 h2 => ⟨s.receiveRead d0 d1, ?_, ?_⟩⟩
  · exact step.trans (congrArg Host.Outcome.next (if_neg (by simp [h1, h2])))
  · cases hh : s.openHolder .read (s.now - 1) with
    | none =>
      rw [State.receiveRead_free _ _ hh]
      exact ⟨rfl, rfl, rfl, rfl⟩
    | some e =>
      obtain ⟨mem, hk⟩ := State.openHolder_mem hh
      have entry := State.entry?_updateEntry hs mem
        (fun x => x.attribute s.windows { data := d0, mask := 0 } { data := d1, mask := 0 }) rfl
      obtain ⟨-, seen, doubtful, captured, satisfied⟩ :=
        e.attribute_fields s.windows { data := d0, mask := 0 } { data := d1, mask := 0 }
      rw [Entry.element_read hk, Entry.element_read hk] at captured
      rw [State.receiveRead_held _ _ hh]
      exact ⟨rfl, rfl, rfl, _, entry, seen, doubtful, captured, satisfied⟩

/-! ### Void positions (R50, R51) -/

theorem exec_voidSlotResolve (s : State) (hp : s.porst = false) :
    exec .voidSlotResolve s =
      .next
        (if (s.openHolder .read (s.now - 1)).isSome then s.resolveVoid .read
        else if (s.allData.openHolder .write s.now).isSome then s.allData.resolveVoid .write
        else s) :=
  exec_up (c := .voidSlotResolve) (f := fun t =>
    if (t.openHolder .read (t.now - 1)).isSome then t.resolveVoid .read
    else if (t.allData.openHolder .write t.now).isSome then t.allData.resolveVoid .write
    else t) rfl hp

theorem State.resolveVoid_held {s : State} {kind : AccessKind} {e : Entry}
    (h : s.openHolder kind (s.resolvedSlot kind) = some e) :
    s.resolveVoid kind = s.updateEntry e.number Entry.makeVoid := by
  simp [State.resolveVoid, h]

theorem Entry.makeVoid_captured (e : Entry) {l : List CapturedBeat} (h : e.captured = some l) :
    e.makeVoid.captured = some (l ++ [e.element e.beatsSeen voidBeat, e.element (e.beatsSeen + 1) voidBeat]) :=
  congrArg (·.map (· ++ [e.element e.beatsSeen voidBeat, e.element (e.beatsSeen + 1) voidBeat])) h

theorem Entry.element_void (e : Entry) (i : Nat) :
    (e.element i voidBeat).data = 0 ∧
    (e.element i voidBeat).mask = if e.kind = .write then some 0xFF else none := by
  refine ⟨rfl, ?_⟩
  cases h : e.kind with
  | read => rw [Entry.element_read h]; rfl
  | write => rw [Entry.element_write h]; rfl

/-- Settles O31: the READ of the slot before, or the WRITE of this slot after the due data slots. -/
theorem voidSlotsAreResolved : Obligations.VoidSlotsAreResolved := by
  unfold Obligations.VoidSlotsAreResolved
  intro s e hp hs h
  have resolved : ∃ (u : State) (kind : AccessKind), exec .voidSlotResolve s = .next (u.resolveVoid kind) ∧
      u.fwd = s.fwd ∧ u.TrackerInv ∧ u.openHolder kind (u.resolvedSlot kind) = some e := by
    rw [exec_voidSlotResolve s hp]
    rcases h with hr | ⟨hr, hw⟩
    · exact ⟨s, .read, congrArg Host.Outcome.next (if_pos (by rw [hr]; rfl)), rfl, hs, hr⟩
    · obtain ⟨same, -⟩ := s.allData_step
      refine ⟨s.allData, .write, ?_, by rw [same], State.allData_trackerInv hs, ?_⟩
      · rw [if_neg (by rw [hr]; nofun), if_pos (by rw [hw]; rfl)]
      · rw [show s.allData.resolvedSlot .write = s.now by rw [same]; rfl]
        exact hw
  obtain ⟨u, kind, step, fwd, whole, holder⟩ := resolved
  obtain ⟨mem, -⟩ := State.openHolder_mem holder
  have entry := State.entry?_updateEntry whole mem Entry.makeVoid rfl
  rw [State.resolveVoid_held holder] at step
  refine ⟨_, e.makeVoid, step, fwd, entry, rfl, rfl, rfl, fun l hl => ⟨_, _, e.makeVoid_captured hl, ?_⟩⟩
  obtain ⟨d0, k0⟩ := e.element_void e.beatsSeen
  obtain ⟨d1, k1⟩ := e.element_void (e.beatsSeen + 1)
  exact ⟨d0, d1, k0, k1.trans k0.symm⟩

end Sys2Proof.Machine
end

section
/-! SUPPORT. What a write of an item does, once its value is read (R189): the bytes of the value, and the answers to a
value in range and out of it. -/
namespace Sys2Proof.Machine

/-- A write is taken, answered OK. -/
def State.accept (t : State) : Out := .next (t.respond { status := .ok, data := [] })

/-- A request is refused and changes nothing. -/
def State.refuse (s : State) (st : Status) : Out := .next (s.respond { status := st, data := [] })

/-- A value that was read is taken; one out of range is refused. -/
def State.answered (s : State) (f : Option State) : Out := f.elim (s.refuse .range) State.accept

theorem exec_accept {s t : State} {c : Instr} (h : s.requestEffect c = some (t, Answer.ok)) (hs : s.Serves c) :
    exec c s = t.accept := exec_request h hs

theorem exec_refuse {s : State} {c : Instr} {st : Status} (h : s.requestEffect c = some (s, Answer.refuse st))
    (hs : s.Serves c) : exec c s = s.refuse st := exec_request h hs

/-! ### Code bytes -/

theorem byte_eq_iff (b : Byte) (k : Nat) (h : k < 256) : b = BitVec.ofNat 8 k ↔ b.toNat = k := by
  rw [← BitVec.toNat_inj, BitVec.toNat_ofNat, Nat.mod_eq_of_lt h]

/-- A code byte that takes two codes. -/
theorem bitCode_eq (b : Byte) : bitCode b = if b.toNat ≤ 1 then some (decide (b.toNat = 1)) else none := by
  unfold bitCode
  split
  next h => simp [h]
  next h => simp [h]
  next h0 h1 => exact (if_neg fun h => (Nat.le_one_iff_eq_zero_or_eq_one.mp h).elim h0 h1).symm

/-- A code byte that takes two codes reads as its bit 0. -/
theorem bitCode_bit (b : Byte) (h : b.toNat ≤ 1) : bitCode b = some (b.getLsbD 0) := by
  rw [bitCode_eq, if_pos h, BitVec.getLsbD, Nat.testBit_zero, Nat.mod_eq_of_lt (Nat.lt_succ_of_le h)]

theorem bitCode_none (b : Byte) (h : ¬ b.toNat ≤ 1) : bitCode b = none := by
  rw [bitCode_eq, if_neg h]

theorem mapOrderOf_eq (b : Byte) : mapOrderOf b = if b = 0 then some .brc else if b = 1 then some .rbc else none := by
  have zero : b = 0 ↔ b.toNat = 0 := byte_eq_iff b 0 (by decide)
  have one : b = 1 ↔ b.toNat = 1 := byte_eq_iff b 1 (by decide)
  unfold mapOrderOf
  split
  next h => exact (if_pos (zero.mpr h)).symm
  next h => exact ((if_neg (by rw [zero]; omega)).trans (if_pos (one.mpr h))).symm
  next h0 h1 => exact ((if_neg (mt zero.mp h0)).trans (if_neg (mt one.mp h1))).symm

theorem blindPolicyOf_eq (b : Byte) :
    blindPolicyOf b = if b = 0 then some .pass else if b = 1 then some .block else none := by
  have zero : b = 0 ↔ b.toNat = 0 := byte_eq_iff b 0 (by decide)
  have one : b = 1 ↔ b.toNat = 1 := byte_eq_iff b 1 (by decide)
  unfold blindPolicyOf
  split
  next h => exact (if_pos (zero.mpr h)).symm
  next h => exact ((if_neg (by rw [zero]; omega)).trans (if_pos (one.mpr h))).symm
  next h0 h1 => exact ((if_neg (mt zero.mp h0)).trans (if_neg (mt one.mp h1))).symm

/-! ### CHANNEL (R17, R104) -/

theorem State.anyLocked_iff (s : State) : s.anyLocked = true ↔ ∃ k : Fin 16, s.windows[k].locked = true := by
  unfold State.anyLocked
  rw [List.any_eq_true]
  constructor
  · rintro ⟨w, hw, hl⟩
    obtain ⟨k, hk, rfl⟩ := List.getElem_of_mem hw
    exact ⟨⟨k, by simpa using hk⟩, by simpa using hl⟩
  · rintro ⟨k, hk⟩
    exact ⟨s.windows[k], by simp, hk⟩

/-- A CHANNEL item is written: LOCKED, else BUSY, else by its value. -/
theorem exec_channelWrite {s : State} {c : Instr} {f : Option State}
    (h : s.requestEffect c = some (s.channelWrite f)) (hs : s.Serves c) :
    exec c s =
      if ∃ k : Fin 16, s.windows[k].locked = true then s.refuse .locked
      else if s.tracker ≠ [] then s.refuse .busy
      else s.answered f := by
  unfold State.channelWrite at h
  by_cases hl : s.anyLocked = true
  · rw [if_pos hl] at h
    rw [if_pos (s.anyLocked_iff.mp hl), exec_refuse h hs]
  rw [if_neg hl] at h
  rw [if_neg (mt s.anyLocked_iff.mpr hl)]
  by_cases ht : s.tracker ≠ []
  · rw [if_pos ht] at h
    rw [if_pos ht, exec_refuse h hs]
  rw [if_neg ht] at h
  rw [if_neg ht]
  cases f with
  | none => exact exec_refuse h hs
  | some t => exact exec_accept h hs

/-- What a map item's value makes of the state. -/
theorem answered_mapWith (s : State) (i : MapItem) (v : Byte) :
    s.answered ((mapWith s.map i v).map fun m => { s with map := m }) =
      match i with
      | .order =>
        if v = 0 then State.accept { s with map := { s.map with order := .brc } }
        else if v = 1 then State.accept { s with map := { s.map with order := .rbc } } else s.refuse .range
      | .rowWidth =>
        if 12 ≤ v.toNat ∧ v.toNat ≤ 17 then State.accept { s with map := { s.map with rowBits := v.toNat } }
        else s.refuse .range
      | .columnWidth =>
        if 9 ≤ v.toNat ∧ v.toNat ≤ 11 then State.accept { s with map := { s.map with colBits := v.toNat } }
        else s.refuse .range := by
  cases i with
  | order =>
    simp only [mapWith, mapOrderOf_eq]
    by_cases h0 : v = 0
    · rw [if_pos h0, if_pos h0]; rfl
    rw [if_neg h0, if_neg h0]
    by_cases h1 : v = 1
    · rw [if_pos h1, if_pos h1]; rfl
    · rw [if_neg h1, if_neg h1]; rfl
  | rowWidth =>
    simp only [mapWith, rowBitsOf]
    by_cases h : 12 ≤ v.toNat ∧ v.toNat ≤ 17
    · rw [if_pos h, if_pos h]; rfl
    · rw [if_neg h, if_neg h]; rfl
  | columnWidth =>
    simp only [mapWith, colBitsOf]
    by_cases h : 9 ≤ v.toNat ∧ v.toNat ≤ 11
    · rw [if_pos h, if_pos h]; rfl
    · rw [if_neg h, if_neg h]; rfl

theorem answered_blindPolicyOf (s : State) (v : Byte) :
    s.answered ((blindPolicyOf v).map fun p => { s with blind := p }) =
      if v = 0 then State.accept { s with blind := .pass }
      else if v = 1 then State.accept { s with blind := .block } else s.refuse .range := by
  rw [blindPolicyOf_eq]
  by_cases h0 : v = 0
  · rw [if_pos h0, if_pos h0]; rfl
  rw [if_neg h0, if_neg h0]
  by_cases h1 : v = 1
  · rw [if_pos h1, if_pos h1]; rfl
  · rw [if_neg h1, if_neg h1]; rfl

/-! ### TIME (R181) -/

theorem exec_writeTime_some (s : State) (v : BitVec 56) {i : IntervalSel} (h : intervalOf (byteAt v 0) = some i)
    (hs : s.Serves (.writeTime v)) : exec (.writeTime v) s = State.accept { s with interval := i } :=
  exec_accept (congrArg some (show s.writeTime v = _ by unfold State.writeTime; rw [h])) hs

theorem exec_writeTime_none (s : State) (v : BitVec 56) (h : intervalOf (byteAt v 0) = none)
    (hs : s.Serves (.writeTime v)) : exec (.writeTime v) s = s.refuse .range :=
  exec_refuse (congrArg some (show s.writeTime v = _ by unfold State.writeTime; rw [h])) hs

theorem exec_writeTime (s : State) (v : BitVec 56) (hs : s.Serves (.writeTime v)) :
    exec (.writeTime v) s =
      match (v.extractLsb' 48 8).toNat with
      | 0 => State.accept { s with interval := .p12 }
      | 1 => State.accept { s with interval := .p16 }
      | 2 => State.accept { s with interval := .p20 }
      | 3 => State.accept { s with interval := .p24 }
      | _ => s.refuse .range := by
  have code {x} (h : intervalOf (v.extractLsb' 48 8) = x) : intervalOf (byteAt v 0) = x := h
  split
  next h => exact exec_writeTime_some s v (code (by simp only [intervalOf, h])) hs
  next h => exact exec_writeTime_some s v (code (by simp only [intervalOf, h])) hs
  next h => exact exec_writeTime_some s v (code (by simp only [intervalOf, h])) hs
  next h => exact exec_writeTime_some s v (code (by simp only [intervalOf, h])) hs
  next h0 h1 h2 h3 =>
    refine exec_writeTime_none s v (code ?_) hs
    unfold intervalOf
    split
    next h => exact absurd h h0
    next h => exact absurd h h1
    next h => exact absurd h h2
    next h => exact absurd h h3
    next => rfl

/-! ### RULE (R63, R64) -/

/-- The ranges of the spacing rules' values. -/
def ruleRanges : List (Nat × Nat) :=
  [(1, 15), (1, 15), (1, 63), (1, 15), (1, 15), (1, 15), (1, 15), (0, 7), (8, 255), (1, 15), (1, 255), (2, 8)]

/-- A spacing rule's values are in range by the table; that of burst length has a second value from 8 on. -/
theorem ruleInRange_ranged {n lo hi : Nat} (x y : Byte) (h : ruleRanges[n]? = some (lo, hi)) :
    ruleInRange n x y = true ↔ lo ≤ x.toNat ∧ x.toNat ≤ hi ∧ (n = 11 → 8 ≤ y.toNat) := by
  have hn : n < 12 := (List.getElem?_eq_some_iff.mp h).1
  have hy := y.isLt
  interval_cases n <;> cases h <;> simp [ruleInRange, and_assoc]
  omega

theorem ruleInRange_unranged {n : Nat} (x y : Byte) (h : 12 ≤ n) : ruleInRange n x y = true := by
  unfold ruleInRange
  split <;> first | omega | rfl

theorem ruleOf_ranged {n lo hi : Nat} (v : BitVec 24) (h : ruleRanges[n]? = some (lo, hi)) :
    ruleOf n v =
      if lo ≤ (byteAt v 1).toNat ∧ (byteAt v 1).toNat ≤ hi ∧ (n = 11 → 8 ≤ (byteAt v 2).toNat) then
        some { enabled := (byteAt v 0).getLsbD 0, value := byteAt v 1, value2 := if n = 11 then byteAt v 2 else 0 }
      else none := by
  have hn : n ≤ 11 := Nat.le_of_lt_succ (List.getElem?_eq_some_iff.mp h).1
  have value2 : (n = 11 → 8 ≤ (if n = 11 then byteAt v 2 else 0).toNat) ↔ (n = 11 → 8 ≤ (byteAt v 2).toNat) :=
    forall_congr' fun e => by rw [if_pos e]
  unfold ruleOf
  simp only [if_pos hn]
  exact if_congr ((ruleInRange_ranged _ _ h).trans (and_congr_right' (and_congr_right' value2))) rfl rfl

theorem ruleOf_unranged {n : Nat} (v : BitVec 24) (h : 12 ≤ n) :
    ruleOf n v = some { enabled := (byteAt v 0).getLsbD 0, value := 0, value2 := 0 } := by
  unfold ruleOf
  simp only [if_neg (Nat.not_le.mpr (Nat.lt_of_lt_of_le (by decide : 11 < 12) h)),
    if_neg (Nat.ne_of_gt (Nat.lt_of_lt_of_le (by decide : 11 < 12) h))]
  exact if_pos (ruleInRange_unranged _ _ h)

theorem exec_writeRule_some (s : State) (n : Byte) (v : BitVec 24) (h : n.toNat < 22) {r : Rule}
    (hr : ruleOf n.toNat v = some r) (hs : s.Serves (.writeRule n v)) :
    exec (.writeRule n v) s =
      State.accept { s with checker := { s.checker with rules := s.checker.rules.set n.toNat r } } :=
  exec_accept (congrArg some (show s.writeRule n v = _ by unfold State.writeRule; rw [dif_pos h, hr]; rfl)) hs

theorem exec_writeRule_none (s : State) (n : Byte) (v : BitVec 24) (h : n.toNat < 22)
    (hr : ruleOf n.toNat v = none) (hs : s.Serves (.writeRule n v)) :
    exec (.writeRule n v) s = s.refuse .range :=
  exec_refuse (congrArg some (show s.writeRule n v = _ by unfold State.writeRule; rw [dif_pos h, hr])) hs

/-- A spacing rule is taken by its value's range, a sequence rule always. -/
theorem exec_writeRule (s : State) (n : Byte) (v : BitVec 24) (h : n.toNat < 22) (hs : s.Serves (.writeRule n v)) :
    (∀ lo hi, ruleRanges[n.toNat]? = some (lo, hi) → exec (.writeRule n v) s =
      if lo ≤ (v.extractLsb' 8 8).toNat ∧ (v.extractLsb' 8 8).toNat ≤ hi ∧
          (n.toNat = 11 → 8 ≤ (v.extractLsb' 0 8).toNat) then
        State.accept { s with checker := { s.checker with
          rules := s.checker.rules.set n.toNat
            { enabled := v.getLsbD 16, value := v.extractLsb' 8 8
              value2 := if n.toNat = 11 then v.extractLsb' 0 8 else 0 } } }
      else s.refuse .range) ∧
    (ruleRanges[n.toNat]? = none → exec (.writeRule n v) s =
      State.accept { s with checker := { s.checker with
        rules := s.checker.rules.set n.toNat { enabled := v.getLsbD 16, value := 0, value2 := 0 } } }) := by
  have enabled : (byteAt v 0).getLsbD 0 = v.getLsbD 16 := by simp [byteAt]
  constructor
  · intro lo hi hr
    have read := ruleOf_ranged v hr
    rw [enabled] at read
    change ruleOf n.toNat v = ite (lo ≤ (v.extractLsb' 8 8).toNat ∧ (v.extractLsb' 8 8).toNat ≤ hi ∧
      (n.toNat = 11 → 8 ≤ (v.extractLsb' 0 8).toNat)) _ _ at read
    by_cases hin : lo ≤ (v.extractLsb' 8 8).toNat ∧ (v.extractLsb' 8 8).toNat ≤ hi ∧
      (n.toNat = 11 → 8 ≤ (v.extractLsb' 0 8).toNat)
    · rw [if_pos hin]
      exact exec_writeRule_some s n v h (read.trans (if_pos hin)) hs
    · rw [if_neg hin]
      exact exec_writeRule_none s n v h (read.trans (if_neg hin)) hs
  · intro hr
    rw [exec_writeRule_some s n v h (ruleOf_unranged v (List.getElem?_eq_none_iff.mp hr)) hs, enabled]

/-! ### ALERT (R168) -/

theorem alertEnablesOf_some (v : BitVec 24)
    (h : (v.extractLsb' 16 8).toNat ≤ 1 ∧ (v.extractLsb' 0 16).toNat < 1024) :
    alertEnablesOf v = some (v.getLsbD 16, v.extractLsb' 0 10) := by
  have code : bitCode (byteAt v 0) = some (v.getLsbD 16) := by
    have bit : (byteAt v 0).getLsbD 0 = v.getLsbD 16 := by simp [byteAt]
    rw [bitCode_bit (byteAt v 0) h.1, bit]
  have set : (fieldTo v 2 16 : BitVec 16).setWidth 10 = v.extractLsb' 0 10 := by
    apply BitVec.eq_of_getLsbD_eq
    intro i hi
    simp [fieldTo, hi, Nat.lt_trans hi (by decide : 10 < 16)]
  unfold alertEnablesOf
  rw [code, ← set]
  exact if_pos h.2

theorem alertEnablesOf_none (v : BitVec 24)
    (h : ¬ ((v.extractLsb' 16 8).toNat ≤ 1 ∧ (v.extractLsb' 0 16).toNat < 1024)) : alertEnablesOf v = none := by
  unfold alertEnablesOf
  by_cases hs : (v.extractLsb' 0 16).toNat < 1024
  · refine (if_pos hs).trans ?_
    rw [bitCode_none (byteAt v 0) fun hc => h ⟨hc, hs⟩]
    rfl
  · exact if_neg hs

theorem exec_writeAlertEnables (s : State) (v : BitVec 24) (hs : s.Serves (.writeAlertEnables v)) :
    exec (.writeAlertEnables v) s =
      if (v.extractLsb' 16 8).toNat ≤ 1 ∧ (v.extractLsb' 0 16).toNat < 1024 then
        State.accept
          { s with alert := { s.alert with globalOn := v.getLsbD 16, enables := v.extractLsb' 0 10 } }
      else s.refuse .range := by
  by_cases h : (v.extractLsb' 16 8).toNat ≤ 1 ∧ (v.extractLsb' 0 16).toNat < 1024
  · rw [if_pos h]
    exact exec_accept (congrArg some (show s.writeAlert v = _ by
      unfold State.writeAlert; rw [alertEnablesOf_some v h])) hs
  · rw [if_neg h]
    exact exec_refuse (congrArg some (show s.writeAlert v = _ by
      unfold State.writeAlert; rw [alertEnablesOf_none v h])) hs

/-- Settles O56: each write reads its value, and the value is taken or refused. -/
theorem plainWritesAct : Obligations.PlainWritesAct := by
  unfold Obligations.PlainWritesAct
  constructor <;> intro s refuse ok
  · intro locked
    refine ⟨fun i v hs => ?_, fun v hs => ?_, fun v hs => ?_⟩
    · refine (exec_channelWrite rfl hs).trans
        (if_congr Iff.rfl rfl (if_congr Iff.rfl rfl ((answered_mapWith s i v).trans ?_)))
      cases i <;> rfl
    · exact (exec_channelWrite rfl hs).trans
        (if_congr Iff.rfl rfl (if_congr Iff.rfl rfl (answered_blindPolicyOf s v)))
    · refine (exec_writeTime s v hs).trans ?_
      generalize (v.extractLsb' 48 8).toNat = code
      rcases code with _ | _ | _ | _ | k <;> rfl
  · refine ⟨fun n v h hs => ?_, fun v hs => exec_writeAlertEnables s v hs⟩
    obtain ⟨ranged, unranged⟩ := exec_writeRule s n v h hs
    extract_lets x y range
    cases hr : ruleRanges[n.toNat]? with
    | none =>
      have : range = none := hr
      rw [this]
      exact unranged hr
    | some r =>
      have : range = some r := hr
      rw [this]
      exact ranged r.1 r.2 hr

end Sys2Proof.Machine
end

section
/-! SUPPORT. A WINDOW item's bytes read as the window's fields, and the rewrite (R90, R92). -/
namespace Sys2Proof.Machine

/-! ### Parts of a byte of a value -/

theorem getLsbD_byteAt {w : Nat} (v : BitVec w) (k i : Nat) (h : i < 8) :
    (byteAt v k).getLsbD i = v.getLsbD (w - 8 * (k + 1) + i) := by
  simp [byteAt, h]

theorem extract_byteAt {w : Nat} (v : BitVec w) (k i n : Nat) (h : i + n ≤ 8) :
    (byteAt v k).extractLsb' i n = v.extractLsb' (w - 8 * (k + 1) + i) n := by
  apply BitVec.eq_of_getLsbD_eq
  intro j hj
  simp [byteAt, show i + j < 8 by omega, Nat.add_assoc]

/-! ### The codes of a window -/

theorem windowKindsOf_zero : windowKindsOf 0 = none := rfl

theorem windowKindsOf_some (c : BitVec 2) (h : c ≠ 0) :
    windowKindsOf c = some (if c = 1 then .read else if c = 2 then .write else .both) := by
  obtain rfl | rfl | rfl : c = 1 ∨ c = 2 ∨ c = 3 := by revert h; revert c; decide
  all_goals rfl

/-- The condition kind of a code from 0 to 7. -/
def condKindNo (k : Nat) : CondKind :=
  match k with
  | 0 => .any
  | 1 => .zero
  | 2 => .nonzero
  | 3 => .topSet
  | 4 => .topClear
  | 5 => .allOnes
  | 6 => .notAllOnes
  | _ => .maskedEqual

theorem condKindOf_some (c : BitVec 4) (h : c.toNat < 8) : condKindOf c = some (condKindNo c.toNat) := by
  unfold condKindOf
  generalize c.toNat = k at h
  interval_cases k <;> rfl

theorem condKindOf_none (c : BitVec 4) (h : 8 ≤ c.toNat) : condKindOf c = none := by
  unfold condKindOf
  split <;> first | omega | rfl

/-- The data condition that a WINDOW value names. -/
def windowCond (v : BitVec 280) : Option (CondWidth × CondKind) :=
  if v.getLsbD 191 then some (condWidthOf (v.extractLsb' 188 2), condKindNo (v.extractLsb' 184 4).toNat) else none

theorem condOf_some (v : BitVec 280) (h : v.getLsbD 191 = true → (v.extractLsb' 184 4).toNat < 8) :
    condOf (byteAt v 11) = some (windowCond v) := by
  unfold condOf windowCond
  rw [getLsbD_byteAt v 11 7 (by decide), extract_byteAt v 11 0 4 (by decide), extract_byteAt v 11 4 2 (by decide)]
  by_cases hp : v.getLsbD 191 = true
  · refine (if_pos hp).trans ?_
    rw [if_pos hp]
    exact congrArg (Option.map _) (condKindOf_some _ (h hp))
  · refine (if_neg hp).trans ?_
    rw [if_neg hp]

theorem condOf_none (v : BitVec 280) (hp : v.getLsbD 191 = true) (h : 8 ≤ (v.extractLsb' 184 4).toNat) :
    condOf (byteAt v 11) = none := by
  unfold condOf
  rw [getLsbD_byteAt v 11 7 (by decide), extract_byteAt v 11 0 4 (by decide)]
  exact (if_pos hp).trans (congrArg (Option.map _) (condKindOf_none _ h))

/-! ### The fields of a window -/

/-- The fields that a WINDOW value in range names. -/
def windowFields (v : BitVec 280) : WindowFields :=
  { enable := v.getLsbD 272
    low := (v.extractLsb' 232 40).setWidth 35, high := (v.extractLsb' 192 40).setWidth 35
    kinds := if v.extractLsb' 273 2 = 1 then .read else if v.extractLsb' 273 2 = 2 then .write else .both
    cond := windowCond v, condValue := v.extractLsb' 120 64, condMask := v.extractLsb' 56 64
    actions :=
      { count := v.getLsbD 48, capture := v.getLsbD 49 || v.getLsbD 50, captureData := v.getLsbD 50
        cue := v.getLsbD 51, seq := v.getLsbD 52, guard := v.getLsbD 53 }
    cuePin := v.extractLsb' 40 2, lanes := v.extractLsb' 32 8 }

/-- Why a WINDOW value is out of range (R90). -/
def WindowRange (v : BitVec 280) : Prop :=
  (v.extractLsb' 192 40).toNat < (v.extractLsb' 232 40).toNat ∨ 2 ^ 35 ≤ (v.extractLsb' 232 40).toNat ∨
    2 ^ 35 ≤ (v.extractLsb' 192 40).toNat ∨ v.extractLsb' 273 2 = 0 ∨
    v.getLsbD 191 = true ∧ 8 ≤ (v.extractLsb' 184 4).toNat

theorem windowActionsOf_byteAt (v : BitVec 280) : windowActionsOf (byteAt v 28) = (windowFields v).actions := by
  unfold windowActionsOf
  simp only [getLsbD_byteAt v 28 _ (by decide : 0 < 8), getLsbD_byteAt v 28 _ (by decide : 1 < 8),
    getLsbD_byteAt v 28 _ (by decide : 2 < 8), getLsbD_byteAt v 28 _ (by decide : 3 < 8),
    getLsbD_byteAt v 28 _ (by decide : 4 < 8), getLsbD_byteAt v 28 _ (by decide : 5 < 8)]
  rfl

theorem windowOf_some (v : BitVec 280) (h : ¬ WindowRange v) : windowOf v = some (windowFields v) := by
  simp only [WindowRange, not_or, not_and, not_lt, not_le] at h
  obtain ⟨hlow, hlowMax, hhighMax, hkinds, hcond⟩ := h
  have kinds : windowKindsOf ((byteAt v 0).extractLsb' 1 2) = some (windowFields v).kinds := by
    rw [extract_byteAt v 0 1 2 (by decide)]
    exact windowKindsOf_some _ hkinds
  unfold windowOf
  refine (if_pos ⟨hlow, Nat.le_of_lt_succ hlowMax, Nat.le_of_lt_succ hhighMax⟩).trans ?_
  rw [kinds, condOf_some v hcond, windowActionsOf_byteAt, getLsbD_byteAt v 0 0 (by decide),
    extract_byteAt v 29 0 2 (by decide)]
  rfl

theorem windowOf_none (v : BitVec 280) (h : WindowRange v) : windowOf v = none := by
  unfold windowOf
  by_cases hlow : (v.extractLsb' 232 40).toNat ≤ (v.extractLsb' 192 40).toNat ∧
      (v.extractLsb' 232 40).toNat ≤ maxFlatAddress ∧ (v.extractLsb' 192 40).toNat ≤ maxFlatAddress
  · refine (if_pos hlow).trans ?_
    obtain ⟨h1, h2, h3⟩ := hlow
    rw [extract_byteAt v 0 1 2 (by decide)]
    obtain h | h | h | h | ⟨hp, h⟩ := h
    · exact absurd h1 (Nat.not_le.mpr h)
    · exact absurd (Nat.lt_succ_of_le h2) (Nat.not_lt.mpr h)
    · exact absurd (Nat.lt_succ_of_le h3) (Nat.not_lt.mpr h)
    · have zero : windowKindsOf (v.extractLsb' (280 - 8 * (0 + 1) + 1) 2) = none :=
        (congrArg windowKindsOf h).trans windowKindsOf_zero
      rw [zero]
    · rw [condOf_none v hp h]
      cases windowKindsOf (v.extractLsb' (280 - 8 * (0 + 1) + 1) 2) with
      | none => rfl
      | some k => rfl
  · exact if_neg hlow

theorem State.writeWindow_some (s : State) (n : Byte) (v : BitVec 280) (h : n.toNat < 16)
    (hl : ¬ s.windows[n.toNat].locked = true) {f : WindowFields} (hf : windowOf v = some f) :
    s.writeWindow n v = (s.rewriteWindow ⟨n.toNat, h⟩ f, Answer.ok) := by
  unfold State.writeWindow
  rw [dif_pos h, hf]
  exact if_neg hl

theorem State.writeWindow_none (s : State) (n : Byte) (v : BitVec 280) (h : n.toNat < 16)
    (hl : ¬ s.windows[n.toNat].locked = true) (hf : windowOf v = none) :
    s.writeWindow n v = (s, Answer.refuse .range) := by
  unfold State.writeWindow
  rw [dif_pos h, hf]
  exact if_neg hl

/-- Settles O57: a locked window refuses, a value out of range is refused, and any other is the rewrite. -/
theorem windowWriteActs : Obligations.WindowWriteActs := by
  unfold Obligations.WindowWriteActs
  intro s n v h hs low high kinds present kind fields
  by_cases hl : s.windows[n.toNat].locked = true
  · refine Eq.trans ?_ (if_pos hl).symm
    refine exec_refuse (congrArg some ?_) hs
    unfold State.writeWindow
    rw [dif_pos h]
    exact if_pos hl
  refine Eq.trans ?_ (if_neg hl).symm
  by_cases hr : WindowRange v
  · have refused := s.writeWindow_none n v h hl (windowOf_none v hr)
    exact (exec_refuse (c := .writeWindow n v) (congrArg some refused) hs).trans (if_pos hr).symm
  · have taken := s.writeWindow_some n v h hl (windowOf_some v hr)
    exact (exec_accept (c := .writeWindow n v) (congrArg some taken) hs).trans (if_neg hr).symm

end Sys2Proof.Machine
end

section
/-! SUPPORT. The bytes of a STAGE item read as the stage's fields (R123): a stage is read exactly when each field is. -/
namespace Sys2Proof.Machine

/-! ### Terms -/

/-- The details of a violation term use no bit beyond the twenty-two rules. -/
theorem violation_details_iff (w : BitVec 32) : (byteAt w 1).toNat < 64 ↔ w.extractLsb' 22 2 = 0 := by
  rw [← BitVec.toNat_inj]
  simp only [byteAt, BitVec.extractLsb'_toNat, Nat.shiftRight_eq_div_pow, BitVec.ofNat_eq_ofNat,
    BitVec.toNat_ofNat]
  norm_num
  omega

/-- The term that four bytes are. -/
def termRead (w : BitVec 32) : Option Term :=
  match (w.extractLsb' 24 8).toNat with
  | 0 => if w.extractLsb' 16 8 = 0 then some (.windowHit (w.extractLsb' 0 16)) else none
  | 1 => if w.extractLsb' 22 2 = 0 then some (.violation (w.extractLsb' 0 22)) else none
  | 2 => some .guard
  | 3 => some (.cueEdge (w.extractLsb' 0 2) (if w.getLsbD 4 then .falling else .rising))
  | 4 => some .interval
  | 5 => some .always
  | 6 =>
    if (w.extractLsb' 8 8).toNat ≤ 3 ∧ (w.extractLsb' 0 8).toNat ≤ 1 then
      some (.level (w.extractLsb' 8 2) (w.getLsbD 0))
    else none
  | _ => none

theorem termOf_level (w : BitVec 32) :
    (if (byteAt w 2).toNat ≤ 3 then
      (bitCode (byteAt w 3)).map fun high => Term.level ((byteAt w 2).extractLsb' 0 2) high
    else none) =
      if (w.extractLsb' 8 8).toNat ≤ 3 ∧ (w.extractLsb' 0 8).toNat ≤ 1 then
        some (.level (w.extractLsb' 8 2) (w.getLsbD 0))
      else none := by
  rw [extract_byteAt w 2 0 2 (by decide)]
  by_cases hp : (byteAt w 2).toNat ≤ 3
  · rw [if_pos hp]
    by_cases hh : (byteAt w 3).toNat ≤ 1
    · rw [bitCode_bit _ hh, getLsbD_byteAt w 3 0 (by decide)]
      exact (if_pos ⟨hp, hh⟩).symm
    · rw [bitCode_none _ hh]
      exact (if_neg fun h => hh h.2).symm
  · rw [if_neg hp]
    exact (if_neg fun h => hp h.1).symm

theorem termOf_eq (w : BitVec 32) : termOf w = termRead w := by
  have code : (byteAt w 0).toNat = (w.extractLsb' 24 8).toNat := rfl
  have edge : Term.cueEdge ((byteAt w 3).extractLsb' 0 2) (if (byteAt w 3).getLsbD 4 then .falling else .rising) =
      .cueEdge (w.extractLsb' 0 2) (if w.getLsbD 4 then .falling else .rising) := by
    rw [extract_byteAt w 3 0 2 (by decide), getLsbD_byteAt w 3 4 (by decide)]
  unfold termOf termRead
  rw [code]
  generalize (w.extractLsb' 24 8).toNat = k
  rcases k with _ | _ | _ | _ | _ | _ | _ | k
  · rfl
  · exact if_congr (violation_details_iff w) rfl rfl
  · rfl
  · exact congrArg some edge
  · rfl
  · rfl
  · exact termOf_level w
  · rfl

theorem Term.isLevel_iff (x : Term) : x.isLevel = true ↔ ∃ p high, x = .level p high := by
  cases x <;> simp [Term.isLevel]

/-! ### Joins, stage numbers, pins and actions -/

theorem joinOf_eq (b : Byte) :
    joinOf b = if b.toNat < 3 then
      some (if b.toNat = 0 then .none else if b.toNat = 1 then .andLevel else .or) else none := by
  unfold joinOf
  generalize b.toNat = k
  rcases k with _ | _ | _ | k
  · rfl
  · rfl
  · rfl
  · exact (if_neg (by omega)).symm

theorem joinOf_some {b : Byte} {j : Join} (h : joinOf b = some j) :
    b.toNat < 3 ∧ (b.toNat = 1 → j = .andLevel) ∧ (b.toNat = 2 → j = .or) := by
  rw [joinOf_eq] at h
  split at h
  · next hb =>
    cases h
    exact ⟨hb, fun h1 => by simp [h1], fun h2 => by simp [h2]⟩
  · cases h

theorem stageNoOf_some {b : Byte} {n : StageNo} (h : stageNoOf b = some n) : b.toNat ≤ 7 := by
  by_contra hb
  exact nomatch (if_neg hb).symm.trans h

theorem pinNoOf_some {b : Byte} {p : PinNo} (h : pinNoOf b = some p) : b.toNat ≤ 3 := by
  by_contra hb
  exact nomatch (if_neg hb).symm.trans h

theorem stageActionsOf_some {b : Byte} {a : StageActions} (h : stageActionsOf b = some a) : b.toNat < 32 := by
  by_contra hb
  exact nomatch (if_neg hb).symm.trans h

theorem termFits_iff (j : Join) (x : Term) :
    termFits j x = true ↔ (j = .andLevel → x.isLevel = true) ∧ (j = .or → ¬ x.isLevel = true) := by
  cases j <;> simp [termFits]

/-! ### The stage -/

/-- The value's bytes are the stage's fields, and the stage is one that R123 allows. -/
structure StageReads (v : BitVec 160) (st : Stage) : Prop where
  termA : termOf (fieldTo v 3 32) = some st.termA
  join : joinOf (byteAt v 4) = some st.join
  termB : termOf (fieldTo v 8 32) = some st.termB
  nextCondition : stageNoOf (byteAt v 14) = some st.nextCondition
  nextTimeout : stageNoOf (byteAt v 15) = some st.nextTimeout
  condActions : stageActionsOf (byteAt v 16) = some st.condActions
  condPin : pinNoOf (byteAt v 17) = some st.condPin
  timeoutActions : stageActionsOf (byteAt v 18) = some st.timeoutActions
  timeoutPin : pinNoOf (byteAt v 19) = some st.timeoutPin
  n : fieldTo v 10 16 = st.n
  t : fieldTo v 13 24 = st.t
  count : st.n ≠ 0
  occurrence : st.termA.isLevel = false
  fits : termFits st.join st.termB = true

/-- A stage is read exactly when its fields are. -/
theorem stageFrom_eq_some_iff (v : BitVec 160) (st : Stage) : stageFrom v = some st ↔ StageReads v st := by
  constructor
  · intro h
    simp only [stageFrom, Option.bind_eq_bind, Option.bind_eq_some_iff] at h
    obtain ⟨a, ha, j, hj, b, hb, nc, hnc, nt, hnt, ca, hca, cp, hcp, ta, hta, tp, htp, h⟩ := h
    split at h
    · next hc =>
      cases h
      exact ⟨ha, hj, hb, hnc, hnt, hca, hcp, hta, htp, rfl, rfl, hc.1, hc.2.1, hc.2.2⟩
    · cases h
  · intro h
    unfold stageFrom
    rw [h.termA, h.join, h.termB, h.nextCondition, h.nextTimeout, h.condActions, h.condPin, h.timeoutActions,
      h.timeoutPin, h.n, h.t]
    exact if_pos ⟨h.count, h.occurrence, h.fits⟩

theorem stageFrom_eq_none (v : BitVec 160) (h : ∀ st, ¬ StageReads v st) : stageFrom v = none :=
  Option.eq_none_iff_forall_ne_some.mpr fun st hs => h st ((stageFrom_eq_some_iff v st).mp hs)

end Sys2Proof.Machine
end

section
/-! SUPPORT. Writes of STAGE, TRACE and CUE items by the value read (R123, R147, R173). -/
namespace Sys2Proof.Machine

/-! ### STAGE -/

theorem setWidth_byteAt {w : Nat} (v : BitVec w) (k n : Nat) (h : n ≤ 8) :
    (byteAt v k).setWidth n = v.extractLsb' (w - 8 * (k + 1)) n := by
  apply BitVec.eq_of_getLsbD_eq
  intro i hi
  simp [byteAt, hi, Nat.lt_of_lt_of_le hi h]

/-- The action bits of a stage from bit `k` of its value on. -/
def actionBits (k : Nat) (v : BitVec 160) : StageActions :=
  { startCapture := v.getLsbD k, stopCapture := v.getLsbD (k + 1), trigger := v.getLsbD (k + 2)
    cue := v.getLsbD (k + 3), alert := v.getLsbD (k + 4) }

theorem stageActionsOf_byteAt (v : BitVec 160) (k : Nat) (h : (byteAt v k).toNat < 32) :
    stageActionsOf (byteAt v k) = some (actionBits (160 - 8 * (k + 1)) v) := by
  refine (if_pos h).trans ?_
  simp only [getLsbD_byteAt v k _ (by decide : 0 < 8), getLsbD_byteAt v k _ (by decide : 1 < 8),
    getLsbD_byteAt v k _ (by decide : 2 < 8), getLsbD_byteAt v k _ (by decide : 3 < 8),
    getLsbD_byteAt v k _ (by decide : 4 < 8)]
  rfl

theorem stageNoOf_byteAt (v : BitVec 160) (k : Nat) (h : (byteAt v k).toNat < 8) :
    stageNoOf (byteAt v k) = some (v.extractLsb' (160 - 8 * (k + 1)) 3) :=
  (if_pos (Nat.le_of_lt_succ h)).trans (congrArg some (setWidth_byteAt v k 3 (by decide)))

theorem pinNoOf_byteAt (v : BitVec 160) (k : Nat) (h : (byteAt v k).toNat < 4) :
    pinNoOf (byteAt v k) = some (v.extractLsb' (160 - 8 * (k + 1)) 2) :=
  (if_pos (Nat.le_of_lt_succ h)).trans (congrArg some (setWidth_byteAt v k 2 (by decide)))

/-- The stage that a value in range with these terms is. -/
def stageRead (v : BitVec 160) (x y : Term) : Stage :=
  { termA := x
    join := if (byteAt v 4).toNat = 0 then .none else if (byteAt v 4).toNat = 1 then .andLevel else .or
    termB := y, n := v.extractLsb' 72 16, t := v.extractLsb' 48 24
    nextCondition := v.extractLsb' 40 3, nextTimeout := v.extractLsb' 32 3
    condActions := actionBits 24 v, condPin := v.extractLsb' 16 2
    timeoutActions := actionBits 8 v, timeoutPin := v.extractLsb' 0 2 }

/-- Every field but the terms and the join is in its range. -/
structure StageBytesInRange (v : BitVec 160) : Prop where
  join : (byteAt v 4).toNat < 3
  count : v.extractLsb' 72 16 ≠ 0
  nextCondition : (byteAt v 14).toNat < 8
  nextTimeout : (byteAt v 15).toNat < 8
  condActions : (byteAt v 16).toNat < 32
  condPin : (byteAt v 17).toNat < 4
  timeoutActions : (byteAt v 18).toNat < 32
  timeoutPin : (byteAt v 19).toNat < 4

theorem stageReads_stageRead {v : BitVec 160} {x y : Term} (ha : termRead (v.extractLsb' 128 32) = some x)
    (hb : termRead (v.extractLsb' 88 32) = some y) (h : StageBytesInRange v) (hx : ¬ x.isLevel = true)
    (hand : (byteAt v 4).toNat = 1 → y.isLevel = true) (hor : (byteAt v 4).toNat = 2 → ¬ y.isLevel = true) :
    StageReads v (stageRead v x y) where
  termA := (termOf_eq _).trans ha
  join := (joinOf_eq _).trans (if_pos h.join)
  termB := (termOf_eq _).trans hb
  nextCondition := stageNoOf_byteAt v 14 h.nextCondition
  nextTimeout := stageNoOf_byteAt v 15 h.nextTimeout
  condActions := stageActionsOf_byteAt v 16 h.condActions
  condPin := pinNoOf_byteAt v 17 h.condPin
  timeoutActions := stageActionsOf_byteAt v 18 h.timeoutActions
  timeoutPin := pinNoOf_byteAt v 19 h.timeoutPin
  n := rfl
  t := rfl
  count := h.count
  occurrence := Bool.not_eq_true _ ▸ hx
  fits := by
    have hj := h.join
    refine (termFits_iff _ _).mpr ⟨fun hl => hand ?_, fun ho => hor ?_⟩
    · by_contra h1
      simp [stageRead, h1] at hl
      split at hl <;> cases hl
    · by_contra h2
      have : (byteAt v 4).toNat = 0 ∨ (byteAt v 4).toNat = 1 := by omega
      obtain h0 | h1 := this
      · simp [stageRead, h0] at ho
      · simp [stageRead, h1] at ho

/-- A stage that is read has its bytes in range. -/
theorem StageReads.inRange {v : BitVec 160} {st : Stage} (h : StageReads v st) : StageBytesInRange v where
  join := (joinOf_some h.join).1
  count := fun h0 => h.count (h.n.symm.trans h0)
  nextCondition := Nat.lt_succ_of_le (stageNoOf_some h.nextCondition)
  nextTimeout := Nat.lt_succ_of_le (stageNoOf_some h.nextTimeout)
  condActions := stageActionsOf_some h.condActions
  condPin := Nat.lt_succ_of_le (pinNoOf_some h.condPin)
  timeoutActions := stageActionsOf_some h.timeoutActions
  timeoutPin := Nat.lt_succ_of_le (pinNoOf_some h.timeoutPin)

theorem State.writeStage_armed (s : State) (n : Byte) (v : BitVec 160) (h : n.toNat < 8)
    (ha : s.seq.state = .armed) : s.writeStage n v = (s, Answer.refuse .busy) := by
  unfold State.writeStage
  rw [dif_pos h]
  exact if_pos ha

theorem State.writeStage_some (s : State) (n : Byte) (v : BitVec 160) (h : n.toNat < 8)
    (ha : s.seq.state ≠ .armed) {st : Stage} (hst : stageFrom v = some st) :
    s.writeStage n v =
      (if s.turns.softReset then s else s.setSeq { s.seq with stages := s.seq.stages.set n.toNat st },
       Answer.ok) := by
  unfold State.writeStage
  rw [dif_pos h, hst]
  exact if_neg ha

theorem State.writeStage_none (s : State) (n : Byte) (v : BitVec 160) (h : n.toNat < 8)
    (ha : s.seq.state ≠ .armed) (hst : stageFrom v = none) : s.writeStage n v = (s, Answer.refuse .range) := by
  unfold State.writeStage
  rw [dif_pos h, hst]
  exact if_neg ha

/-! ### TRACE (R147, R157) -/

theorem exec_settingWrite {s : State} {c : Instr} {f : Option Capture}
    (h : s.requestEffect c = some (s.settingWrite f)) (hs : s.Serves c) :
    exec c s = s.answered (f.map s.setCapture) := by
  cases f with
  | none => exact exec_refuse h hs
  | some x => exact exec_accept h hs

/-- The two mode items: BUSY in RUN and POST, else by the value. -/
theorem exec_modeWrite {s : State} {c : Instr} {f : Option Capture}
    (h : s.requestEffect c = some (if s.capture.running then (s, Answer.refuse .busy) else s.settingWrite f))
    (hs : s.Serves c) :
    exec c s =
      if s.capture.state = .run ∨ s.capture.state = .post then s.refuse .busy
      else s.answered (f.map s.setCapture) := by
  by_cases hr : s.capture.running = true
  · rw [if_pos hr] at h
    rw [if_pos (s.capture.running_iff.mp hr), exec_refuse h hs]
  · rw [if_neg hr] at h
    rw [if_neg (mt s.capture.running_iff.mpr hr), exec_settingWrite h hs]

theorem answered_bitCode (s : State) (b : Byte) (f : Bool → Capture) :
    s.answered (((bitCode b).map f).map s.setCapture) =
      if b.toNat ≤ 1 then State.accept (s.setCapture (f (decide (b.toNat = 1)))) else s.refuse .range := by
  rw [bitCode_eq]
  by_cases h : b.toNat ≤ 1
  · rw [if_pos h, if_pos h]; rfl
  · rw [if_neg h, if_neg h]; rfl

theorem answered_arbiterMode (s : State) (b : Byte) :
    s.answered (((bitCode b).map s.capture.withArbiterMode).map s.setCapture) =
      if b.toNat = 0 then
        State.accept (s.setCapture { s.capture with settings := { s.capture.settings with arbiterMode := .fixed } })
      else if b.toNat = 1 then
        State.accept (s.setCapture
          { s.capture with
            settings := { s.capture.settings with arbiterMode := .rotating }
            rotation := [.event, .access, .marker] })
      else s.refuse .range := by
  rw [answered_bitCode]
  generalize b.toNat = k
  rcases k with _ | _ | k
  · rfl
  · rfl
  · exact if_neg (by omega)

theorem answered_classes (s : State) (v : BitVec 16) :
    s.answered (((classesOf (byteAt v 1)).map fun k =>
        s.capture.withSettings { s.capture.settings with classes := k }).map s.setCapture) =
      if (v.extractLsb' 0 8).toNat < 32 then
        State.accept (s.setCapture (s.capture.withSettings
          { s.capture.settings with
            classes :=
              { violation := v.getLsbD 0, guard := v.getLsbD 1, stage := v.getLsbD 2, cue := v.getLsbD 3
                channel := v.getLsbD 4 } }))
      else s.refuse .range := by
  unfold classesOf
  simp only [getLsbD_byteAt v 1 _ (by decide : 0 < 8), getLsbD_byteAt v 1 _ (by decide : 1 < 8),
    getLsbD_byteAt v 1 _ (by decide : 2 < 8), getLsbD_byteAt v 1 _ (by decide : 3 < 8),
    getLsbD_byteAt v 1 _ (by decide : 4 < 8)]
  change s.answered ((Option.map _ (if (v.extractLsb' 0 8).toNat < 32 then _ else none)).map _) = _
  by_cases h : (v.extractLsb' 0 8).toNat < 32
  · rw [if_pos h, if_pos h]; rfl
  · rw [if_neg h, if_neg h]; rfl

theorem answered_postFill (s : State) (v : BitVec 16) :
    s.answered (((postFillOf v).map fun p =>
        s.capture.withSettings { s.capture.settings with postFill := p }).map s.setCapture) =
      if v.toNat ≤ 4095 then
        State.accept (s.setCapture (s.capture.withSettings { s.capture.settings with postFill := v.setWidth 12 }))
      else s.refuse .range := by
  unfold postFillOf
  by_cases h : v.toNat ≤ 4095
  · rw [if_pos h, if_pos h]; rfl
  · rw [if_neg h, if_neg h]; rfl

/-! ### CUE (R173) -/

/-- The cue function of a code from 0 to 3. -/
def cueFunctionNo (k : Nat) : CueFunction :=
  match k with
  | 0 => .port
  | 1 => .seqCue
  | 2 => .windowCue
  | _ => .alertMirror

theorem cueFunctionOf_eq (b : Byte) :
    cueFunctionOf b = if 4 ≤ b.toNat then none else some (cueFunctionNo b.toNat) := by
  unfold cueFunctionOf
  generalize b.toNat = k
  rcases k with _ | _ | _ | _ | k
  · rfl
  · rfl
  · rfl
  · rfl
  · exact (if_pos (by omega)).symm

/-- Why a CUE value is out of range. -/
def CueRange (v : BitVec 32) : Prop :=
  4 ≤ (v.extractLsb' 24 8).toNat ∨ 2 ≤ (v.extractLsb' 16 8).toNat ∨ v.extractLsb' 0 8 = 0

theorem cueOf_some (v : BitVec 32) (h : ¬ CueRange v) :
    cueOf v =
      some
        { function := cueFunctionNo (v.extractLsb' 24 8).toNat, out := v.getLsbD 16, latch := v.getLsbD 8
          width := v.extractLsb' 0 8 } := by
  simp only [CueRange, not_or, not_le] at h
  obtain ⟨hf, ho, hw⟩ := h
  have function : cueFunctionOf (byteAt v 0) = some (cueFunctionNo (v.extractLsb' 24 8).toNat) :=
    (cueFunctionOf_eq _).trans (if_neg (Nat.not_le.mpr hf))
  have out : bitCode (byteAt v 1) = some (v.getLsbD 16) := by
    rw [bitCode_bit (byteAt v 1) (Nat.le_of_lt_succ ho), getLsbD_byteAt v 1 0 (by decide)]
  unfold cueOf
  rw [function, out, getLsbD_byteAt v 2 0 (by decide)]
  exact if_neg hw

theorem cueOf_none (v : BitVec 32) (h : CueRange v) : cueOf v = none := by
  unfold cueOf
  obtain h | h | h := h
  · have none : cueFunctionOf (byteAt v 0) = none := (cueFunctionOf_eq _).trans (if_pos h)
    rw [none]
  · rw [bitCode_none (byteAt v 1) (Nat.not_le.mpr h)]
    cases cueFunctionOf (byteAt v 0) with
    | none => rfl
    | some f => rfl
  · split
    next f out hf ho => exact if_pos h
    next => rfl

theorem Cue.rewrite_eq (c : Cue) (f : CueFields) :
    c.rewrite f =
      { c with
        function := f.function, out := f.out, latch := f.latch, width := f.width
        remaining := if c.function = f.function then c.remaining else 0
        active := c.active && decide (c.function = f.function) } := by
  unfold Cue.rewrite
  by_cases h : c.function = f.function <;> simp [h]

theorem State.writeCue_some (s : State) (n : Byte) (v : BitVec 32) (h : n.toNat < 4) {f : CueFields}
    (hf : cueOf v = some f) :
    s.writeCue n v = ({ s with cues := s.cues.set n.toNat (s.cues[n.toNat].rewrite f) }, Answer.ok) := by
  unfold State.writeCue
  rw [dif_pos h, hf]

theorem State.writeCue_none (s : State) (n : Byte) (v : BitVec 32) (h : n.toNat < 4) (hf : cueOf v = none) :
    s.writeCue n v = (s, Answer.refuse .range) := by
  unfold State.writeCue
  rw [dif_pos h, hf]

end Sys2Proof.Machine
end

section
/-! SUPPORT. Writes of STAGE, TRACE and CUE items, put together. -/
namespace Sys2Proof.Machine

theorem exec_writeStage_range {s : State} {n : Byte} {v : BitVec 160} (h : n.toNat < 8)
    (hs : s.Serves (.writeStage n v)) (ha : s.seq.state ≠ .armed) (hno : ∀ st, ¬ StageReads v st) :
    exec (.writeStage n v) s = s.refuse .range :=
  exec_refuse (c := .writeStage n v) (congrArg some (s.writeStage_none n v h ha (stageFrom_eq_none v hno))) hs

theorem exec_writeStage_taken {s : State} {n : Byte} {v : BitVec 160} {st : Stage} (h : n.toNat < 8)
    (hs : s.Serves (.writeStage n v)) (ha : s.seq.state ≠ .armed) (hst : StageReads v st) :
    exec (.writeStage n v) s =
      State.accept (if s.turns.softReset = true then s
        else { s with seq := { s.seq with stages := s.seq.stages.set n.toNat st } }) :=
  exec_accept (c := .writeStage n v)
    (congrArg some (s.writeStage_some n v h ha ((stageFrom_eq_some_iff v st).mpr hst))) hs

theorem exec_writeCue {s : State} {n : Byte} {v : BitVec 32} (h : n.toNat < 4) (hs : s.Serves (.writeCue n v)) :
    (CueRange v → exec (.writeCue n v) s = s.refuse .range) ∧
    (¬ CueRange v → exec (.writeCue n v) s =
      State.accept { s with cues := s.cues.set n.toNat (s.cues[n.toNat].rewrite
        { function := cueFunctionNo (v.extractLsb' 24 8).toNat, out := v.getLsbD 16, latch := v.getLsbD 8
          width := v.extractLsb' 0 8 }) }) := by
  constructor <;> intro hr
  · exact exec_refuse (c := .writeCue n v) (congrArg some (s.writeCue_none n v h (cueOf_none v hr))) hs
  · exact exec_accept (c := .writeCue n v) (congrArg some (s.writeCue_some n v h (cueOf_some v hr))) hs

/-- Settles O58: a stage is read exactly when its fields are, and the other values by their codes. -/
theorem stageTraceAndCueWritesAct : Obligations.StageTraceAndCueWritesAct := by
  unfold Obligations.StageTraceAndCueWritesAct
  intro s refuse ok setting running term isLevel actions
  have level (x : Term) : x.isLevel = true ↔ isLevel x := x.isLevel_iff
  have hterm : ∀ w, termOf w = term w := termOf_eq
  refine ⟨fun n v h hs => ?_, fun v => ?_, fun n v h hs => ?_⟩
  · intro byte a b
    have ha : termOf (fieldTo v 3 32) = a := hterm _
    have hb : termOf (fieldTo v 8 32) = b := hterm _
    refine ⟨fun armed => ?_, fun notArmed out => ?_, fun x y notArmed hx hy h4 hn h14 h15 h16 h17 h18 h19 lx ly ly' => ?_⟩
    · exact exec_refuse (c := .writeStage n v) (congrArg some (s.writeStage_armed n v h armed)) hs
    · refine exec_writeStage_range h hs notArmed fun st hst => ?_
      obtain ⟨join, count, c14, c15, c16, c17, c18, c19⟩ := hst.inRange
      have termA := ha.symm.trans hst.termA
      have termB := hb.symm.trans hst.termB
      obtain ⟨-, hand, hor⟩ := joinOf_some hst.join
      obtain ⟨fitsAnd, fitsOr⟩ := (termFits_iff _ _).mp hst.fits
      obtain out | out | out | out | out | out | out | out | out | out | ⟨x, hx, lx⟩ | ⟨y, hy, hl⟩ := out
      · exact nomatch out.symm.trans termA
      · exact nomatch out.symm.trans termB
      · exact absurd join (Nat.not_lt.mpr out)
      · exact count out
      · exact absurd c14 (Nat.not_lt.mpr out)
      · exact absurd c15 (Nat.not_lt.mpr out)
      · exact absurd c16 (Nat.not_lt.mpr out)
      · exact absurd c17 (Nat.not_lt.mpr out)
      · exact absurd c18 (Nat.not_lt.mpr out)
      · exact absurd c19 (Nat.not_lt.mpr out)
      · obtain rfl := Option.some.inj (hx.symm.trans termA)
        exact Bool.false_ne_true (hst.occurrence.symm.trans ((level _).mpr lx))
      · obtain rfl := Option.some.inj (hy.symm.trans termB)
        obtain ⟨h1, l⟩ | ⟨h2, l⟩ := hl
        · exact l ((level _).mp (fitsAnd (hand h1)))
        · exact fitsOr (hor h2) ((level _).mpr l)
    · have termA := (termOf_eq _).symm.trans (ha.trans hx)
      have termB := (termOf_eq _).symm.trans (hb.trans hy)
      exact exec_writeStage_taken h hs notArmed (stageReads_stageRead termA termB
        ⟨h4, hn, h14, h15, h16, h17, h18, h19⟩ (mt (level x).mp lx) (fun h1 => (level y).mpr (ly h1))
        (fun h2 => mt (level y).mp (ly' h2)))
  · intro c t
    refine ⟨fun hs => ?_, fun hs => ?_, fun hs => ?_, fun hs => ?_, fun hs => ?_, fun hs => ?_, fun hs => ?_⟩
    · refine (exec_modeWrite rfl hs).trans (if_congr Iff.rfl rfl ((answered_bitCode s _ _).trans ?_))
      exact if_congr Iff.rfl (congrArg (fun m => setting { t with storeMode := m })
        (if_congr decide_eq_true_iff rfl rfl)) rfl
    · exact (exec_modeWrite rfl hs).trans (if_congr Iff.rfl rfl (answered_arbiterMode s _))
    · exact (exec_settingWrite rfl hs).trans (answered_bitCode s _ _)
    · exact (exec_settingWrite rfl hs).trans (answered_bitCode s _ _)
    · exact (exec_settingWrite rfl hs).trans (answered_classes s v)
    · exact (exec_settingWrite rfl hs).trans (answered_postFill s v)
    · exact (exec_settingWrite rfl hs).trans (answered_bitCode s _ _)
  · intro function width
    obtain ⟨refused, taken⟩ := exec_writeCue h hs
    by_cases hr : CueRange v
    · exact (refused hr).trans (if_pos hr).symm
    · refine (taken hr).trans (Eq.trans ?_ (if_neg hr).symm)
      rw [Cue.rewrite_eq]
      rfl

end Sys2Proof.Machine
end

section
/-! SUPPORT. Frames that end early (R185), and the general write as its group's write (R189). -/
namespace Sys2Proof.Machine

/-! ### Frames that end early -/

/-- Bytes that hold a complete request hold one however many follow. -/
theorem requestComplete_append (l r : List Byte) (h : requestComplete l = true) :
    requestComplete (l ++ r) = true := by
  cases l with
  | nil => cases h
  | cons code operands =>
    rw [List.cons_append]
    simp only [requestComplete] at h ⊢
    cases hk : operandBytes code with
    | none => rfl
    | some k =>
      simp only [hk] at h ⊢
      by_cases hw : code.toNat = 0x02
      · rw [if_pos hw] at h ⊢
        match operands with
        | [] => cases h
        | [_] => cases h
        | group :: index :: value =>
          simp only [List.cons_append, List.length_append, decide_eq_true_eq] at h ⊢
          exact h.trans (Nat.le_add_right _ _)
      · rw [if_neg hw] at h ⊢
        simp only [List.length_append, decide_eq_true_eq] at h ⊢
        exact h.trans (Nat.le_add_right _ _)

theorem requestComplete_of_append (l r : List Byte) (h : requestComplete (l ++ r) = false) :
    requestComplete l = false := by
  cases hl : requestComplete l with
  | false => rfl
  | true => exact absurd (requestComplete_append l r hl) (by rw [h]; exact Bool.false_ne_true)

/-- The bytes of an incomplete request are kept. -/
theorem Port.takeBytes_incomplete (p : Port) (pre l : List Byte) (hf : p.frame = .request pre)
    (hl : requestComplete (pre ++ l) = false) :
    l.foldl Port.takeByte p = { p with frame := .request (pre ++ l) } := by
  induction l generalizing p pre with
  | nil =>
    rw [List.append_nil, ← hf]
    rfl
  | cons b l ih =>
    have split : pre ++ b :: l = (pre ++ [b]) ++ l := List.append_cons pre b l
    rw [split] at hl
    have taken : p.takeByte b = { p with frame := .request (pre ++ [b]) } := by
      simp [Port.takeByte, hf, requestComplete_of_append _ _ hl]
    rw [List.foldl_cons, taken, ih _ (pre ++ [b]) rfl hl, split]

/-- A frame that ends before its request is complete leaves the request that waits, and nothing else. -/
theorem Port.wholeFrame_incomplete (p : Port) (bytes : List Byte) (h : requestComplete bytes = false) :
    p.wholeFrame bytes = { p with frame := .idle, bits := [], reply := .filler } := by
  unfold Port.wholeFrame
  rw [Port.takeBytes_incomplete p.deselect.select [] bytes rfl (by rwa [List.nil_append])]
  rfl

theorem exec_frameAborted_incomplete (s : State) (bytes : List Byte) (hp : s.porst = false)
    (h : requestComplete bytes = false) :
    exec (.frameAborted bytes) s =
      .next { s with port := { s.port with frame := .idle, bits := [], reply := .filler } } := by
  rw [exec_up (c := .frameAborted bytes)
    (f := fun t => if requestComplete bytes then t else { t with port := t.port.wholeFrame bytes }) rfl hp, h]
  exact congrArg (fun port => Host.Outcome.next { s with port := port }) (s.port.wholeFrame_incomplete bytes h)

theorem exec_writeItem_short (s : State) (group index : Byte) (value : List Byte) (hp : s.porst = false)
    (h : value.length < writeBytes group) :
    exec (.writeItem group index value) s =
      .next { s with port := { s.port with frame := .idle, bits := [], reply := .filler } } := by
  have incomplete : requestComplete ([0x02, group, index] ++ value) = false := by
    have short : decide (writeBytes group ≤ value.length) = false := decide_eq_false (Nat.not_le.mpr h)
    exact short
  have row : exec (.writeItem group index value) s =
      s.whileUp fun t => { t with port := t.port.wholeFrame ([0x02, group, index] ++ value) } := if_pos h
  rw [row, s.whileUp_up _ hp, s.port.wholeFrame_incomplete _ incomplete]

/-! ### The group's write -/

theorem exec_of_form {s : State} {c c' : Instr} {p : State × Answer} (hp : s.porst = false)
    (form : requestForm c = requestForm c') (hc : s.requestEffect c = some p) (hc' : s.requestEffect c' = some p) :
    exec c s = exec c' s := by
  have admits : s.admits c = s.admits c' := by
    unfold State.admits
    rw [form]
  rw [exec_of_requestEffect hc, exec_of_requestEffect hc']
  cases ha : s.admits c' with
  | true => rw [s.serve_up c hp (admits.trans ha), s.serve_up c' hp ha, s.request_of hc, s.request_of hc']
  | false => rw [s.serve_other c (admits.trans ha), s.serve_other c' ha]

/-- A general write within its group's indices is the group's own write. -/
theorem exec_writeItem_form {s : State} {group index : Byte} {value : List Byte} {c : Instr} (hp : s.porst = false)
    (hv : writeBytes group ≤ value.length) (form : requestForm c = writeOf group index value)
    (effect : s.requestEffect c = some (s.writeItem group index value)) :
    exec (.writeItem group index value) s = exec c s :=
  exec_of_form hp ((if_pos hv).trans form.symm) (if_pos hv) effect

theorem State.writeItem_outside (s : State) {group index : Byte} (value : List Byte)
    (h : groupIndices group ≤ index.toNat) : s.writeItem group index value = (s, Answer.refuse .range) := if_pos h

theorem State.writeItem_notWritable (s : State) {group : Byte} (index : Byte) (value : List Byte)
    (h : ¬ (1 ≤ group.toNat ∧ group.toNat ≤ 8)) :
    s.writeItem group index value = (s, Answer.refuse .range) := by
  unfold State.writeItem
  split
  · rfl
  · split <;> first | rfl | omega

theorem writeBytes_notWritable {group : Byte} (h : ¬ (1 ≤ group.toNat ∧ group.toNat ≤ 8)) :
    writeBytes group = 0 := by
  unfold writeBytes groupWritable
  refine if_neg fun hg => h ?_
  simpa using hg

end Sys2Proof.Machine
end

section
/-! SUPPORT. WRITE ITEM by its groups (R189), and what no write of an item reaches. -/
namespace Sys2Proof.Machine

/-! ### What no write of an item reaches -/

/-- The state keeps what a write of an item leaves alone: the shadow, the counter, forwarding, the latches, the
store, the violation counts and where the sequencer stands. -/
abbrev State.KeepsRun (s t : State) : Prop :=
  s.SameShadow t ∧ t.now = s.now ∧ t.fwd = s.fwd ∧ t.alert.latches = s.alert.latches ∧
    t.capture.store = s.capture.store ∧ t.checker.counts = s.checker.counts ∧ t.seq.state = s.seq.state ∧
    t.seq.queue = s.seq.queue

theorem State.KeepsRun.refl (s : State) : s.KeepsRun s := ⟨⟨rfl, rfl, rfl⟩, rfl, rfl, rfl, rfl, rfl, rfl, rfl⟩

theorem State.channelWrite_keepsRun (s : State) (f : Option State) (h : ∀ t, f = some t → s.KeepsRun t) :
    s.KeepsRun (s.channelWrite f).1 := by
  unfold State.channelWrite
  split
  · exact .refl s
  · split
    · exact .refl s
    · split
      · exact h _ rfl
      · exact .refl s

theorem State.writeMap_keepsRun (s : State) (i : MapItem) (v : Byte) : s.KeepsRun (s.writeMap i v).1 := by
  apply s.channelWrite_keepsRun
  intro t h
  obtain ⟨m, -, rfl⟩ := Option.map_eq_some_iff.mp h
  exact .refl s

theorem State.writeBlind_keepsRun (s : State) (v : Byte) : s.KeepsRun (s.writeBlind v).1 := by
  apply s.channelWrite_keepsRun
  intro t h
  obtain ⟨p, -, rfl⟩ := Option.map_eq_some_iff.mp h
  exact .refl s

theorem State.writeRule_keepsRun (s : State) (i : Byte) (v : BitVec 24) : s.KeepsRun (s.writeRule i v).1 := by
  unfold State.writeRule
  split
  · split <;> exact .refl s
  · exact .refl s

theorem State.writeWindow_keepsRun (s : State) (i : Byte) (v : BitVec 280) : s.KeepsRun (s.writeWindow i v).1 := by
  unfold State.writeWindow
  split
  · split
    · exact .refl s
    · split <;> exact .refl s
  · exact .refl s

theorem State.writeStage_keepsRun (s : State) (i : Byte) (v : BitVec 160) : s.KeepsRun (s.writeStage i v).1 := by
  unfold State.writeStage
  split
  · split
    · exact .refl s
    · split
      · split <;> exact .refl s
      · exact .refl s
  · exact .refl s

theorem State.settingWrite_keepsRun {α : Type} (s : State) (o : Option α) (f : α → Capture)
    (h : ∀ x, (f x).store = s.capture.store) : s.KeepsRun (s.settingWrite (o.map f)).1 := by
  cases o with
  | none => exact .refl s
  | some x => exact ⟨⟨rfl, rfl, rfl⟩, rfl, rfl, rfl, h x, rfl, rfl, rfl⟩

theorem State.writeTrace_keepsRun (s : State) (i : Byte) (v : BitVec 16) : s.KeepsRun (s.writeTrace i v).1 := by
  unfold State.writeTrace
  simp only
  split
  · split
    · exact .refl s
    · exact s.settingWrite_keepsRun _ _ fun _ => rfl
  · split
    · exact .refl s
    · exact s.settingWrite_keepsRun _ _ s.capture.withArbiterMode_store
  · exact s.settingWrite_keepsRun _ _ fun _ => rfl
  · exact s.settingWrite_keepsRun _ _ fun _ => rfl
  · exact s.settingWrite_keepsRun _ _ fun _ => rfl
  · exact s.settingWrite_keepsRun _ _ fun _ => rfl
  · exact s.settingWrite_keepsRun _ _ fun _ => rfl
  · exact .refl s

theorem State.writeAlert_keepsRun (s : State) (v : BitVec 24) : s.KeepsRun (s.writeAlert v).1 := by
  unfold State.writeAlert
  split <;> exact .refl s

theorem State.writeCue_keepsRun (s : State) (i : Byte) (v : BitVec 32) : s.KeepsRun (s.writeCue i v).1 := by
  unfold State.writeCue
  split
  · split <;> exact .refl s
  · exact .refl s

theorem State.writeTime_keepsRun (s : State) (v : BitVec 56) : s.KeepsRun (s.writeTime v).1 := by
  unfold State.writeTime
  split <;> exact .refl s

theorem State.writeItem_keepsRun (s : State) (g i : Byte) (v : List Byte) : s.KeepsRun (s.writeItem g i v).1 := by
  unfold State.writeItem
  split
  · exact .refl s
  · split
    · split
      · exact s.writeMap_keepsRun _ _
      · exact s.writeMap_keepsRun _ _
      · exact s.writeMap_keepsRun _ _
      · exact s.writeBlind_keepsRun _
    · exact s.writeRule_keepsRun _ _
    · exact s.writeWindow_keepsRun _ _
    · exact s.writeStage_keepsRun _ _
    · exact s.writeTrace_keepsRun _ _
    · exact s.writeAlert_keepsRun _
    · exact s.writeCue_keepsRun _ _
    · exact s.writeTime_keepsRun _
    · exact .refl s

/-- Whatever becomes of a general write, it completes and keeps the run. -/
theorem exec_writeItem_keepsRun (s : State) (g i : Byte) (v : List Byte) (hp : s.porst = false) :
    ∃ t, exec (.writeItem g i v) s = .next t ∧ s.KeepsRun t := by
  by_cases hv : v.length < writeBytes g
  · exact ⟨_, exec_writeItem_short s g i v hp hv, .refl s⟩
  · have effect : s.requestEffect (.writeItem g i v) = some (s.writeItem g i v) := if_pos (Nat.not_lt.mp hv)
    cases ha : s.admits (.writeItem g i v) with
    | false => exact ⟨s, exec_request_other effect ha, .refl s⟩
    | true =>
      refine ⟨_, (exec_of_requestEffect effect).trans (s.serve_up _ hp ha), ?_⟩
      rw [s.request_of effect]
      exact s.writeItem_keepsRun g i v

/-! ### The CHANNEL group -/

theorem writeOf_channel (index : Byte) (value : List Byte) (h : index.toNat < 4) :
    writeOf 1 index value =
      match index.toNat with
      | 0 => .writeAddressMap .order (ofBytes 1 value)
      | 1 => .writeAddressMap .rowWidth (ofBytes 1 value)
      | 2 => .writeAddressMap .columnWidth (ofBytes 1 value)
      | _ => .writeBlindPolicy (ofBytes 1 value) := if_neg (Nat.not_le.mpr h)

theorem State.writeItem_channel (s : State) (index : Byte) (value : List Byte) (h : index.toNat < 4) :
    s.writeItem 1 index value =
      match index.toNat with
      | 0 => s.writeMap .order (ofBytes 1 value)
      | 1 => s.writeMap .rowWidth (ofBytes 1 value)
      | 2 => s.writeMap .columnWidth (ofBytes 1 value)
      | _ => s.writeBlind (ofBytes 1 value) := if_neg (Nat.not_le.mpr h)

theorem exec_writeItem_channel {s : State} {index : Byte} {value : List Byte} (hp : s.porst = false)
    (hv : writeBytes 1 ≤ value.length) (hi : index.toNat < 4) :
    exec (.writeItem 1 index value) s =
      match index.toNat with
      | 0 => exec (.writeAddressMap .order (ofBytes 1 value)) s
      | 1 => exec (.writeAddressMap .rowWidth (ofBytes 1 value)) s
      | 2 => exec (.writeAddressMap .columnWidth (ofBytes 1 value)) s
      | _ => exec (.writeBlindPolicy (ofBytes 1 value)) s := by
  have row := writeOf_channel index value hi
  have effect := s.writeItem_channel index value hi
  generalize index.toNat = k at row effect hi
  rcases k with _ | _ | _ | k
  · exact exec_writeItem_form hp hv row.symm (congrArg some effect.symm)
  · exact exec_writeItem_form hp hv row.symm (congrArg some effect.symm)
  · exact exec_writeItem_form hp hv row.symm (congrArg some effect.symm)
  · exact exec_writeItem_form hp hv row.symm (congrArg some effect.symm)

/-- Settles O59: a general write is its group's row, a frame that ends early, or refused. -/
theorem writeItemReachesItsGroup : Obligations.WriteItemReachesItsGroup := by
  unfold Obligations.WriteItemReachesItsGroup
  intro s group index value hp
  refine ⟨fun hs out => ?_, fun hv hi => ?_, exec_writeItem_short s group index value hp,
    exec_writeItem_keepsRun s group index value hp⟩
  · obtain out | ⟨out, hv⟩ := out
    · have hv : writeBytes group ≤ value.length := by rw [writeBytes_notWritable out]; exact Nat.zero_le _
      exact exec_refuse (c := .writeItem group index value)
        ((if_pos hv).trans (congrArg some (s.writeItem_notWritable index value out))) hs
    · exact exec_refuse (c := .writeItem group index value)
        ((if_pos hv).trans (congrArg some (s.writeItem_outside value out))) hs
  · have inside := Nat.not_le.mpr hi
    refine ⟨?_, ?_, ?_, ?_, ?_, ?_, ?_, ?_⟩
    · rintro rfl v rfl
      exact exec_writeItem_channel hp hv hi
    · rintro rfl
      exact exec_writeItem_form hp hv (if_neg inside).symm (congrArg some (if_neg inside).symm)
    · rintro rfl
      exact exec_writeItem_form hp hv (if_neg inside).symm (congrArg some (if_neg inside).symm)
    · rintro rfl
      exact exec_writeItem_form hp hv (if_neg inside).symm (congrArg some (if_neg inside).symm)
    · rintro rfl
      exact exec_writeItem_form hp hv (if_neg inside).symm (congrArg some (if_neg inside).symm)
    · rintro rfl
      exact exec_writeItem_form hp hv (if_neg inside).symm (congrArg some (if_neg inside).symm)
    · rintro rfl
      exact exec_writeItem_form hp hv (if_neg inside).symm (congrArg some (if_neg inside).symm)
    · rintro rfl
      exact exec_writeItem_form hp hv (if_neg inside).symm (congrArg some (if_neg inside).symm)

end Sys2Proof.Machine
end

section
/-! SUPPORT. The values that a READ ITEM returns, read as a write reads them (11.2, R193): bytes and fields of a
spelled value, and each code read back. -/
namespace Sys2Proof.Machine

/-! ### Bytes and fields of a spelled value -/

/-- Bit `i` of a value shifted in byte by byte. -/
theorem shiftBytes_getLsbD {w : Nat} (l : List Byte) (i : Nat) (hi : i < w) (hl : i < 8 * l.length) :
    (l.foldl (fun (acc : BitVec w) (b : Byte) => (acc <<< 8) ||| b.setWidth w) 0).getLsbD i =
      (l.getD (l.length - 1 - i / 8) 0).getLsbD (i % 8) := by
  induction l using List.reverseRecOn generalizing i with
  | nil => simp at hl
  | append_singleton l b ih =>
    rw [List.foldl_append]
    simp only [List.foldl_cons, List.foldl_nil, BitVec.getLsbD_or, BitVec.getLsbD_shiftLeft, BitVec.getLsbD_setWidth,
      hi, decide_true, Bool.true_and, List.length_append, List.length_singleton]
    by_cases h8 : i < 8
    · have last : l.length + 1 - 1 - i / 8 = l.length := by omega
      have bit : i % 8 = i := by omega
      rw [last, bit]
      simp [h8]
    · have earlier : l.length + 1 - 1 - i / 8 = l.length - 1 - (i - 8) / 8 := by omega
      have inside : l.length - 1 - (i - 8) / 8 < l.length := by simp at hl; omega
      have high : b.getLsbD i = false := BitVec.getLsbD_of_ge b i (by omega)
      have bit : (i - 8) % 8 = i % 8 := by omega
      rw [earlier, List.getD_append _ _ _ _ inside, ← bit, ← ih (i - 8) (by omega) (by simp at hl; omega), high]
      simp [h8]

theorem ofBytes_getLsbD {n : Nat} {l : List Byte} (h : l.length = n) {i : Nat} (hi : i < 8 * n) :
    (ofBytes n l).getLsbD i = (l.getD (n - 1 - i / 8) 0).getLsbD (i % 8) := by
  subst h
  unfold ofBytes
  rw [List.take_length]
  exact shiftBytes_getLsbD l i hi hi

/-- Byte `k` of a spelled value is the `k`th byte spelled. -/
theorem byteAt_ofBytes {n : Nat} {l : List Byte} (h : l.length = n) (k : Nat) (hk : k < n) :
    byteAt (ofBytes n l) k = l.getD k 0 := by
  apply BitVec.eq_of_getLsbD_eq
  intro i hi
  have place : n - 1 - (8 * n - 8 * (k + 1) + i) / 8 = k := by omega
  have bit : (8 * n - 8 * (k + 1) + i) % 8 = i := by omega
  rw [getLsbD_byteAt _ _ _ hi, ofBytes_getLsbD h (by omega), place, bit]

theorem toBytes_getD {w : Nat} (m : Nat) (v : BitVec w) (k : Nat) (hk : k < m) :
    (toBytes m v).getD k 0 = v.extractLsb' (8 * (m - 1 - k)) 8 := by
  simp [toBytes, List.getD, hk]

/-- A field of a spelled value is the value spelled at its place. -/
theorem fieldTo_ofBytes {n w : Nat} (pre post : List Byte) (m last bits : Nat) (v : BitVec w)
    (h : pre.length + m + post.length = n) (hlast : last + 1 = pre.length + m) (hbits : bits ≤ 8 * m) :
    fieldTo (ofBytes n (pre ++ (toBytes m v ++ post))) last bits = v.setWidth bits := by
  have length : (pre ++ (toBytes m v ++ post)).length = n := by simp; omega
  apply BitVec.eq_of_getLsbD_eq
  intro i hi
  have place : n - 1 - (8 * n - 8 * (last + 1) + i) / 8 = pre.length + (m - 1 - i / 8) := by omega
  have bit : (8 * n - 8 * (last + 1) + i) % 8 = i % 8 := by omega
  have field : (pre ++ (toBytes m v ++ post)).getD (pre.length + (m - 1 - i / 8)) 0 =
      v.extractLsb' (8 * (i / 8)) 8 := by
    rw [List.getD_append_right _ _ _ _ (Nat.le_add_right _ _), Nat.add_sub_cancel_left,
      List.getD_append _ _ _ _ (by simp; omega), toBytes_getD _ _ _ (by omega)]
    congr 2
    omega
  have whole : 8 * (i / 8) + i % 8 = i := Nat.div_add_mod i 8
  rw [fieldTo, BitVec.getLsbD_extractLsb', ofBytes_getLsbD length (by omega), place, bit, field,
    BitVec.getLsbD_extractLsb', BitVec.getLsbD_setWidth, whole]
  simp [hi, Nat.mod_lt]

/-! ### Codes read back -/

theorem mapOrderOf_code (o : MapOrder) : mapOrderOf o.code = some o := by cases o <;> rfl

theorem blindPolicyOf_code (p : BlindPolicy) : blindPolicyOf p.code = some p := by cases p <;> rfl

theorem intervalOf_code (i : IntervalSel) : intervalOf i.code = some i := by cases i <;> rfl

theorem cueFunctionOf_code (f : CueFunction) : cueFunctionOf f.code = some f := by cases f <;> rfl

theorem windowKindsOf_code (k : WindowKinds) : windowKindsOf k.code = some k := by cases k <;> rfl

theorem joinOf_code (j : Join) : joinOf j.code = some j := by cases j <;> rfl

theorem bitCode_boolByte (b : Bool) : bitCode (boolByte b) = some b := by cases b <;> rfl

theorem condOf_condByte (c : Option (CondWidth × CondKind)) : condOf (condByte c) = some c := by
  rcases c with _ | ⟨w, k⟩
  · rfl
  · cases w <;> cases k <;> rfl

theorem windowActionsOf_byte (a : WindowActions) (h : a.captureData = true → a.capture = true) :
    windowActionsOf a.byte = a := by
  obtain ⟨count, capture, captureData, cue, seq, guard⟩ := a
  revert h
  revert count capture captureData cue seq guard
  decide

theorem stageActionsOf_byte (a : StageActions) : stageActionsOf a.byte = some a := by
  obtain ⟨startCapture, stopCapture, trigger, cue, alert⟩ := a
  revert startCapture stopCapture trigger cue alert
  decide

theorem classesOf_byte (c : ClassEnables) : classesOf c.byte = some c := by
  obtain ⟨violation, guard, stage, cue, channel⟩ := c
  revert violation guard stage cue channel
  decide

theorem stageNoOf_byte (n : StageNo) : stageNoOf (n.setWidth 8) = some n := by
  revert n
  decide

theorem pinNoOf_byte (p : PinNo) : pinNoOf (p.setWidth 8) = some p := by
  revert p
  decide

end Sys2Proof.Machine
end

section
/-! SUPPORT. READ ITEM of the writable items, group by group (R188, 11.2). -/
namespace Sys2Proof.Machine

/-! ### Values of other widths -/

theorem ofBytes_toBytes_setWidth {w : Nat} (m : Nat) (v : BitVec w) : ofBytes m (toBytes m v) = v.setWidth (8 * m) := by
  apply BitVec.eq_of_getLsbD_eq
  intro i hi
  have place : m - 1 - (m - 1 - i / 8) = i / 8 := by omega
  have whole : 8 * (i / 8) + i % 8 = i := Nat.div_add_mod i 8
  rw [ofBytes_getLsbD (toBytes_length m v) hi, toBytes_getD _ _ _ (by omega), place, BitVec.getLsbD_extractLsb',
    BitVec.getLsbD_setWidth, whole]
  simp [hi, Nat.mod_lt]

/-- Bytes are the spelling of the value they are read as. -/
theorem toBytes_ofBytes {n : Nat} {l : List Byte} (h : l.length = n) : toBytes n (ofBytes n l) = l := by
  apply List.ext_getElem (by simp [h])
  intro k hk hl
  have inside : k < n := h ▸ hl
  have read := byteAt_ofBytes h k inside
  have place : 8 * n - 8 * (k + 1) = 8 * (n - 1 - k) := by omega
  rw [byteAt, place, List.getD_eq_getElem _ _ hl] at read
  rw [← read]
  simp [toBytes]

theorem setWidth_setWidth_self {w : Nat} (bits : Nat) (v : BitVec w) (h : w ≤ bits) :
    (v.setWidth bits).setWidth w = v := by
  rw [BitVec.setWidth_setWidth_of_le _ h, BitVec.setWidth_eq]

theorem index_toNat {n : Nat} (k : Fin n) (h : n ≤ 256) : (BitVec.ofNat 8 k.val).toNat = k.val := by
  have := k.isLt
  rw [BitVec.toNat_ofNat]
  exact Nat.mod_eq_of_lt (by omega)

/-- The item that a group's table holds at an index. -/
theorem table_item {α : Type} {n : Nat} (table : Vector α n) (k : Fin n) (hn : n ≤ 256) {f : Nat → α → List Byte}
    {l : List Byte} (h : table[(BitVec.ofNat 8 k.val).toNat]?.map (f (BitVec.ofNat 8 k.val).toNat) = some l) :
    l = f k.val table[k] := by
  rw [index_toNat k hn, Vector.getElem?_eq_getElem k.isLt] at h
  exact (Option.some.inj h).symm

/-! ### CHANNEL (R14, R104) -/

theorem map_readsBack (s : State) (hm : s.map.Inv) :
    mapWith s.map .order s.map.order.code = some s.map ∧
    mapWith s.map .rowWidth (BitVec.ofNat 8 s.map.rowBits) = some s.map ∧
    mapWith s.map .columnWidth (BitVec.ofNat 8 s.map.colBits) = some s.map ∧
    (BitVec.ofNat 8 s.map.rowBits).toNat = s.map.rowBits ∧ (BitVec.ofNat 8 s.map.colBits).toNat = s.map.colBits := by
  obtain ⟨row, row', col, col'⟩ := hm
  have rowBits : (BitVec.ofNat 8 s.map.rowBits).toNat = s.map.rowBits := by
    rw [BitVec.toNat_ofNat]; exact Nat.mod_eq_of_lt (by omega)
  have colBits : (BitVec.ofNat 8 s.map.colBits).toNat = s.map.colBits := by
    rw [BitVec.toNat_ofNat]; exact Nat.mod_eq_of_lt (by omega)
  refine ⟨?_, ?_, ?_, rowBits, colBits⟩
  · exact congrArg (Option.map fun o => { s.map with order := o }) (mapOrderOf_code s.map.order)
  · have read : rowBitsOf (BitVec.ofNat 8 s.map.rowBits) = some s.map.rowBits := by
      rw [rowBitsOf, rowBits]
      exact if_pos ⟨row, row'⟩
    exact congrArg (Option.map fun r => { s.map with rowBits := r }) read
  · have read : colBitsOf (BitVec.ofNat 8 s.map.colBits) = some s.map.colBits := by
      rw [colBitsOf, colBits]
      exact if_pos ⟨col, col'⟩
    exact congrArg (Option.map fun c => { s.map with colBits := c }) read

/-! ### RULE (R63, R64) -/

theorem boolByte_getLsbD (b : Bool) : (boolByte b).getLsbD 0 = b := by cases b <;> rfl

theorem ruleOf_bytes (n : Nat) (r : Rule) (range : ruleInRange n r.value r.value2 = true)
    (value : 12 ≤ n → r.value = 0) (value2 : n ≠ 11 → r.value2 = 0) : ruleOf n (ofBytes 3 (r.bytes n)) = some r := by
  have length : (r.bytes n).length = 3 := rfl
  have b0 : byteAt (ofBytes 3 (r.bytes n)) 0 = boolByte r.enabled := byteAt_ofBytes length 0 (by decide)
  have b1 : byteAt (ofBytes 3 (r.bytes n)) 1 = if n ≤ 11 then r.value else 0 := byteAt_ofBytes length 1 (by decide)
  have b2 : byteAt (ofBytes 3 (r.bytes n)) 2 = if n = 11 then r.value2 else 0 := byteAt_ofBytes length 2 (by decide)
  have read1 : (if n ≤ 11 then byteAt (ofBytes 3 (r.bytes n)) 1 else 0) = r.value := by
    rw [b1]
    by_cases h : n ≤ 11
    · rw [if_pos h, if_pos h]
    · rw [if_neg h, value (by omega)]
  have read2 : (if n = 11 then byteAt (ofBytes 3 (r.bytes n)) 2 else 0) = r.value2 := by
    rw [b2]
    by_cases h : n = 11
    · rw [if_pos h, if_pos h]
    · rw [if_neg h, value2 h]
  unfold ruleOf
  simp only [read1, read2, b0, boolByte_getLsbD]
  exact if_pos range

/-! ### WINDOW (R90) -/

/-- The first byte of a window's item: what is programmed, the lock, and the revision mark. -/
def Window.head (w : Window) : Byte :=
  bitAt 0 w.fields.enable ||| (w.fields.kinds.code.setWidth 8 <<< 1) ||| bitAt 6 w.locked ||| bitAt 7 w.revised

/-- The last seven bytes of a window's item. -/
def Window.tail (w : Window) : List Byte :=
  [w.fields.actions.byte, w.fields.cuePin.setWidth 8, w.fields.lanes] ++ natBytes 4 w.hitCount

theorem Window.bytes_length (w : Window) : w.bytes.length = 35 := by simp [Window.bytes]

theorem Window.bytes_eq (w : Window) :
    w.bytes = [w.head] ++ (toBytes 5 w.fields.low ++ (toBytes 5 w.fields.high ++ ([condByte w.fields.cond] ++
      (toBytes 8 w.fields.condValue ++ (toBytes 8 w.fields.condMask ++ w.tail))))) := by
  simp [Window.bytes, Window.head, Window.tail]

theorem window_head_bits (enable locked revised : Bool) (kinds : BitVec 2) :
    (bitAt 0 enable ||| (kinds.setWidth 8 <<< 1) ||| bitAt 6 locked ||| bitAt 7 revised).getLsbD 0 = enable ∧
    (bitAt 0 enable ||| (kinds.setWidth 8 <<< 1) ||| bitAt 6 locked ||| bitAt 7 revised).extractLsb' 1 2 = kinds ∧
    (bitAt 0 enable ||| (kinds.setWidth 8 <<< 1) ||| bitAt 6 locked ||| bitAt 7 revised).getLsbD 6 = locked ∧
    (bitAt 0 enable ||| (kinds.setWidth 8 <<< 1) ||| bitAt 6 locked ||| bitAt 7 revised).getLsbD 7 = revised := by
  revert enable locked revised kinds
  decide

/-- The fields that a window's item spells in several bytes. -/
theorem Window.fieldTo_bytes (w : Window) :
    fieldTo (ofBytes 35 w.bytes) 5 40 = w.fields.low.setWidth 40 ∧
    fieldTo (ofBytes 35 w.bytes) 10 40 = w.fields.high.setWidth 40 ∧
    fieldTo (ofBytes 35 w.bytes) 19 64 = w.fields.condValue ∧
    fieldTo (ofBytes 35 w.bytes) 27 64 = w.fields.condMask := by
  have tail : w.tail.length = 7 := by simp [Window.tail]
  have field {n : Nat} (pre post : List Byte) (m last bits : Nat) (v : BitVec n)
      (e : w.bytes = pre ++ (toBytes m v ++ post))
      (hl : pre.length + m + post.length = 35) (hlast : last + 1 = pre.length + m) (hbits : bits ≤ 8 * m) :
      fieldTo (ofBytes 35 w.bytes) last bits = v.setWidth bits := by
    rw [e]
    exact fieldTo_ofBytes pre post m last bits v hl hlast hbits
  refine ⟨?_, ?_, ?_, ?_⟩
  · exact field [w.head] _ 5 5 40 _ w.bytes_eq (by simp [tail]) rfl (by decide)
  · refine field ([w.head] ++ toBytes 5 w.fields.low) ([condByte w.fields.cond] ++ (toBytes 8 w.fields.condValue ++
      (toBytes 8 w.fields.condMask ++ w.tail))) 5 10 40 _ (w.bytes_eq.trans ?_) ?_ (by simp) (by decide)
    · simp only [List.append_assoc]
    · simp [tail]
  · refine (field ([w.head] ++ (toBytes 5 w.fields.low ++ (toBytes 5 w.fields.high ++ [condByte w.fields.cond])))
      (toBytes 8 w.fields.condMask ++ w.tail) 8 19 64 _ (w.bytes_eq.trans ?_) ?_ (by simp) (by decide)).trans
      (BitVec.setWidth_eq _)
    · simp only [List.append_assoc]
    · simp [tail]
  · refine (field ([w.head] ++ (toBytes 5 w.fields.low ++ (toBytes 5 w.fields.high ++ ([condByte w.fields.cond] ++
      toBytes 8 w.fields.condValue)))) w.tail 8 27 64 _ (w.bytes_eq.trans ?_) ?_ (by simp) (by decide)).trans
      (BitVec.setWidth_eq _)
    · simp only [List.append_assoc]
    · simp [tail]

/-- The fields of a window read back. -/
theorem windowOf_bytes (w : Window) (h : w.Inv) : windowOf (ofBytes 35 w.bytes) = some w.fields := by
  obtain ⟨order, -, hcapture⟩ := h
  obtain ⟨enable, kinds, -, -⟩ := window_head_bits w.fields.enable w.locked w.revised w.fields.kinds.code
  obtain ⟨low, high, value, mask⟩ := w.fieldTo_bytes
  have byte (k : Nat) (hk : k < 35) : byteAt (ofBytes 35 w.bytes) k = w.bytes.getD k 0 :=
    byteAt_ofBytes w.bytes_length k hk
  have b0 : byteAt (ofBytes 35 w.bytes) 0 = _ := byte 0 (by decide)
  have b11 : byteAt (ofBytes 35 w.bytes) 11 = condByte w.fields.cond := byte 11 (by decide)
  have b28 : byteAt (ofBytes 35 w.bytes) 28 = w.fields.actions.byte := byte 28 (by decide)
  have b29 : byteAt (ofBytes 35 w.bytes) 29 = w.fields.cuePin.setWidth 8 := byte 29 (by decide)
  have b30 : byteAt (ofBytes 35 w.bytes) 30 = w.fields.lanes := byte 30 (by decide)
  have enable' : (byteAt (ofBytes 35 w.bytes) 0).getLsbD 0 = w.fields.enable :=
    (congrArg (fun b : Byte => b.getLsbD 0) b0).trans enable
  have kinds' : windowKindsOf ((byteAt (ofBytes 35 w.bytes) 0).extractLsb' 1 2) = some w.fields.kinds :=
    (congrArg windowKindsOf ((congrArg (fun b : Byte => b.extractLsb' 1 2) b0).trans kinds)).trans
      (windowKindsOf_code _)
  have pin : (w.fields.cuePin.setWidth 8).extractLsb' 0 2 = w.fields.cuePin := by
    rw [← BitVec.setWidth_eq_extractLsb' (by decide : 2 ≤ 8)]
    exact setWidth_setWidth_self 8 _ (by decide)
  have lowNat : (w.fields.low.setWidth 40).toNat = w.fields.low.toNat :=
    BitVec.toNat_setWidth_of_le (by decide)
  have highNat : (w.fields.high.setWidth 40).toNat = w.fields.high.toNat :=
    BitVec.toNat_setWidth_of_le (by decide)
  have bounded (a : BitVec 35) : a.toNat ≤ maxFlatAddress := Nat.le_of_lt_succ a.isLt
  unfold windowOf
  simp only [low, high, value, mask, enable', kinds', b11, b28, b29, b30, pin, lowNat, highNat, condOf_condByte,
    windowActionsOf_byte _ hcapture, setWidth_setWidth_self 40 w.fields.low (by decide),
    setWidth_setWidth_self 40 w.fields.high (by decide)]
  exact if_pos ⟨order, bounded _, bounded _⟩

theorem Window.hitCount_bytes (w : Window) (h : w.Inv) : (ofBytes 4 (w.bytes.drop 31)).toNat = w.hitCount := by
  obtain ⟨-, hit, -⟩ := h
  have last : w.bytes.drop 31 = toBytes 4 (BitVec.ofNat (8 * 4) w.hitCount) := rfl
  rw [last, ofBytes_toBytes, BitVec.toNat_ofNat]
  exact Nat.mod_eq_of_lt (Nat.lt_succ_of_le hit)

theorem window_item {s : State} {k : Fin 16} {l : List Byte}
    (h : s.itemBytes 0x03 (BitVec.ofNat 8 k.val) = some l) : l = s.windows[k].bytes :=
  table_item s.windows k (by decide) (f := fun _ => Window.bytes) h

end Sys2Proof.Machine
end

section
/-! SUPPORT. READ ITEM of STAGE, TRACE, ALERT, CUE and TIME items, and all groups put together (R188, 11.2). -/
namespace Sys2Proof.Machine

/-! ### STAGE (R123) -/

theorem Term.bytes_length (x : Term) : x.bytes.length = 4 := by cases x <;> simp [Term.bytes]

theorem edge_byte (p : PinNo) (e : Edge) :
    (p.setWidth 8 ||| (e.code <<< 4)).extractLsb' 0 2 = p ∧
    (if (p.setWidth 8 ||| (e.code <<< 4)).getLsbD 4 then Edge.falling else .rising) = e := by
  revert p
  cases e <;> decide

theorem pin_byte (p : PinNo) : (p.setWidth 8).toNat ≤ 3 ∧ (p.setWidth 8).extractLsb' 0 2 = p := by
  revert p
  decide

/-- A term read back from its four bytes. -/
theorem termOf_bytes (x : Term) : termOf (ofBytes 4 x.bytes) = some x := by
  have byte (k : Nat) (hk : k < 4) : byteAt (ofBytes 4 x.bytes) k = x.bytes.getD k 0 :=
    byteAt_ofBytes x.bytes_length k hk
  have b0 := byte 0 (by decide)
  have b1 := byte 1 (by decide)
  have b2 := byte 2 (by decide)
  have b3 := byte 3 (by decide)
  cases x with
  | windowHit set =>
    have field : fieldTo (ofBytes 4 (Term.windowHit set).bytes) 3 16 = set.setWidth 16 :=
      fieldTo_ofBytes [0, 0] [] 2 3 16 set rfl rfl (by decide)
    unfold termOf
    rw [b0, b1, field, BitVec.setWidth_eq]
    rfl
  | violation set =>
    have field : fieldTo (ofBytes 4 (Term.violation set).bytes) 3 22 = set.setWidth 22 :=
      fieldTo_ofBytes [1] [] 3 3 22 set rfl rfl (by decide)
    have top : (byteAt (ofBytes 4 (Term.violation set).bytes) 1).toNat < 64 := by
      have first : (Term.violation set).bytes.getD 1 0 = set.extractLsb' 16 8 := rfl
      have bound := set.isLt
      rw [b1, first, BitVec.extractLsb'_toNat, Nat.shiftRight_eq_div_pow]
      omega
    unfold termOf
    rw [b0, field, BitVec.setWidth_eq]
    exact if_pos top
  | guard =>
    unfold termOf
    rw [b0]
    rfl
  | cueEdge p e =>
    obtain ⟨pin, edge⟩ := edge_byte p e
    unfold termOf
    rw [b0, b3]
    exact congrArg some (congrArg₂ Term.cueEdge pin edge)
  | interval =>
    unfold termOf
    rw [b0]
    rfl
  | always =>
    unfold termOf
    rw [b0]
    rfl
  | level p high =>
    obtain ⟨small, pin⟩ := pin_byte p
    have code : bitCode ((Term.level p high).bytes.getD 3 0) = some high := bitCode_boolByte high
    have pin' : ((Term.level p high).bytes.getD 2 0).extractLsb' 0 2 = p := pin
    unfold termOf
    rw [b0, b2, b3, code, pin']
    exact if_pos small

theorem Stage.bytes_length (st : Stage) : st.bytes.length = 20 := by
  simp [Stage.bytes, Term.bytes_length]

/-- The last six bytes of a stage's item. -/
def Stage.tail (st : Stage) : List Byte :=
  [st.nextCondition.setWidth 8, st.nextTimeout.setWidth 8, st.condActions.byte, st.condPin.setWidth 8,
   st.timeoutActions.byte, st.timeoutPin.setWidth 8]

theorem Stage.bytes_eq (st : Stage) :
    st.bytes = toBytes 4 (ofBytes 4 st.termA.bytes) ++ ([st.join.code] ++ (toBytes 4 (ofBytes 4 st.termB.bytes) ++
      (toBytes 2 st.n ++ (toBytes 3 st.t ++ st.tail)))) := by
  rw [toBytes_ofBytes st.termA.bytes_length, toBytes_ofBytes st.termB.bytes_length]
  simp [Stage.bytes, Stage.tail]

/-- The fields that a stage's item spells in several bytes. -/
theorem Stage.fieldTo_bytes (st : Stage) :
    fieldTo (ofBytes 20 st.bytes) 3 32 = ofBytes 4 st.termA.bytes ∧
    fieldTo (ofBytes 20 st.bytes) 8 32 = ofBytes 4 st.termB.bytes ∧
    fieldTo (ofBytes 20 st.bytes) 10 16 = st.n ∧ fieldTo (ofBytes 20 st.bytes) 13 24 = st.t := by
  have tail : st.tail.length = 6 := rfl
  have field {n : Nat} (pre post : List Byte) (m last : Nat) (v : BitVec n)
      (e : st.bytes = pre ++ (toBytes m v ++ post))
      (hl : pre.length + m + post.length = 20) (hlast : last + 1 = pre.length + m) (hbits : n ≤ 8 * m) :
      fieldTo (ofBytes 20 st.bytes) last n = v := by
    rw [e, fieldTo_ofBytes pre post m last n v hl hlast hbits, BitVec.setWidth_eq]
  refine ⟨?_, ?_, ?_, ?_⟩
  · exact field [] _ 4 3 _ st.bytes_eq (by simp [tail]) rfl (by decide)
  · refine field (toBytes 4 (ofBytes 4 st.termA.bytes) ++ [st.join.code])
      (toBytes 2 st.n ++ (toBytes 3 st.t ++ st.tail)) 4 8 _ (st.bytes_eq.trans ?_) ?_ (by simp) (by decide)
    · simp only [List.append_assoc]
    · simp [tail]
  · refine field (toBytes 4 (ofBytes 4 st.termA.bytes) ++ ([st.join.code] ++ toBytes 4 (ofBytes 4 st.termB.bytes)))
      (toBytes 3 st.t ++ st.tail) 2 10 _ (st.bytes_eq.trans ?_) ?_ (by simp) (by decide)
    · simp only [List.append_assoc]
    · simp [tail]
  · refine field (toBytes 4 (ofBytes 4 st.termA.bytes) ++ ([st.join.code] ++
      (toBytes 4 (ofBytes 4 st.termB.bytes) ++ toBytes 2 st.n))) st.tail 3 13 _ (st.bytes_eq.trans ?_) ?_ (by simp)
      (by decide)
    · simp only [List.append_assoc]
    · simp [tail]

theorem stageReads_bytes (st : Stage) (h : st.Inv) : StageReads (ofBytes 20 st.bytes) st := by
  obtain ⟨count, occurrence, fits⟩ := h
  obtain ⟨termA, termB, n, t⟩ := st.fieldTo_bytes
  have byte {b : Byte} (k : Nat) (hk : k < 20)
      (e : (toBytes 4 (ofBytes 4 st.termA.bytes) ++ ([st.join.code] ++ (toBytes 4 (ofBytes 4 st.termB.bytes) ++
        (toBytes 2 st.n ++ (toBytes 3 st.t ++ st.tail))))).getD k 0 = b) :
      byteAt (ofBytes 20 st.bytes) k = b := by
    rw [byteAt_ofBytes st.bytes_length k hk, st.bytes_eq, e]
  exact
    { termA := (congrArg termOf termA).trans (termOf_bytes _)
      join := (congrArg joinOf (byte 4 (by decide) rfl)).trans (joinOf_code _)
      termB := (congrArg termOf termB).trans (termOf_bytes _)
      nextCondition := (congrArg stageNoOf (byte 14 (by decide) rfl)).trans (stageNoOf_byte _)
      nextTimeout := (congrArg stageNoOf (byte 15 (by decide) rfl)).trans (stageNoOf_byte _)
      condActions := (congrArg stageActionsOf (byte 16 (by decide) rfl)).trans (stageActionsOf_byte _)
      condPin := (congrArg pinNoOf (byte 17 (by decide) rfl)).trans (pinNoOf_byte _)
      timeoutActions := (congrArg stageActionsOf (byte 18 (by decide) rfl)).trans (stageActionsOf_byte _)
      timeoutPin := (congrArg pinNoOf (byte 19 (by decide) rfl)).trans (pinNoOf_byte _)
      n := n, t := t, count := count, occurrence := occurrence, fits := fits }

/-! ### TRACE (R147) -/

theorem ofBytes_pair (b : Byte) : ofBytes 2 [0, b] = b.setWidth 16 := by
  revert b
  decide

theorem classes_readBack (c : ClassEnables) :
    classesOf ((ofBytes 2 [0, c.byte]).setWidth 8) = some c ∧ (ofBytes 2 [0, c.byte]).toNat < 32 := by
  have small : c.byte.toNat < 32 := by
    by_contra h
    exact nomatch (if_neg h).symm.trans (classesOf_byte c)
  rw [ofBytes_pair]
  constructor
  · exact (congrArg classesOf (setWidth_setWidth_self 16 c.byte (by decide))).trans (classesOf_byte c)
  · rw [BitVec.toNat_setWidth_of_le (by decide)]
    exact small

theorem postFill_readBack (p : BitVec 12) : postFillOf (ofBytes 2 (toBytes 2 p)) = some p := by
  have spelled : ofBytes 2 (toBytes 2 p) = p.setWidth 16 := ofBytes_toBytes_setWidth 2 p
  have bound : (p.setWidth 16).toNat ≤ 4095 := by
    rw [BitVec.toNat_setWidth_of_le (by decide)]
    exact Nat.le_of_lt_succ p.isLt
  rw [spelled]
  exact (if_pos bound).trans (congrArg some (setWidth_setWidth_self 16 p (by decide)))

theorem boolPair (b : Bool) : ofBytes 2 [0, boolByte b] = if b then 1 else 0 := by
  cases b <;> decide

/-! ### ALERT (R168) -/

theorem alert_readBack (a : Alert) : alertEnablesOf (ofBytes 3 a.bytes) = some (a.globalOn, a.enables) := by
  have length : a.bytes.length = 3 := rfl
  have on : byteAt (ofBytes 3 a.bytes) 0 = boolByte a.globalOn := byteAt_ofBytes length 0 (by decide)
  have set : fieldTo (ofBytes 3 a.bytes) 2 16 = a.enables.setWidth 16 :=
    fieldTo_ofBytes [boolByte a.globalOn] [] 2 2 16 a.enables rfl rfl (by decide)
  have bound : (a.enables.setWidth 16).toNat < 1024 := by
    rw [BitVec.toNat_setWidth_of_le (by decide)]
    exact a.enables.isLt
  unfold alertEnablesOf
  rw [on, set, bitCode_boolByte]
  exact (if_pos bound).trans (congrArg (fun e => some (a.globalOn, e)) (setWidth_setWidth_self 16 a.enables (by decide)))

/-! ### CUE (R173, R174) -/

theorem cue_state_bits (latch level : Bool) :
    (bitAt 0 latch ||| bitAt 7 level).getLsbD 0 = latch ∧ (bitAt 0 latch ||| bitAt 7 level).getLsbD 7 = level := by
  revert latch level
  decide

theorem cue_readBack (c : Cue) (level : Bool) (h : c.width ≠ 0) :
    cueOf (ofBytes 4 (c.bytes level)) =
      some { function := c.function, out := c.out, latch := c.latch, width := c.width } := by
  have length : (c.bytes level).length = 4 := rfl
  have b0 : byteAt (ofBytes 4 (c.bytes level)) 0 = c.function.code := byteAt_ofBytes length 0 (by decide)
  have b1 : byteAt (ofBytes 4 (c.bytes level)) 1 = boolByte c.out := byteAt_ofBytes length 1 (by decide)
  have b2 : byteAt (ofBytes 4 (c.bytes level)) 2 = bitAt 0 c.latch ||| bitAt 7 level :=
    byteAt_ofBytes length 2 (by decide)
  have b3 : byteAt (ofBytes 4 (c.bytes level)) 3 = c.width := byteAt_ofBytes length 3 (by decide)
  unfold cueOf
  rw [b0, b1, b2, b3, cueFunctionOf_code, bitCode_boolByte, (cue_state_bits c.latch level).1]
  exact if_neg h

/-! ### TIME (R181) -/

theorem interval_small (i : IntervalSel) : i.code.toNat < 4 := by cases i <;> decide

/-- Settles O60: each group's value is spelled by its codes and fields, and each is read back. -/
theorem itemsReadBackAsWritten : Obligations.ItemsReadBackAsWritten := by
  unfold Obligations.ItemsReadBackAsWritten
  refine ⟨fun s index l h hm => ?_, fun s n l h => ?_, fun s k l h => ?_, fun s k l h => ?_, fun s index l h => ?_,
    fun s l h => ?_, fun s p l h => ?_, fun s l h => ?_⟩
  · obtain ⟨order, rowWidth, columnWidth, row, column⟩ := map_readsBack s hm
    refine ⟨?_, ?_, ?_, ?_⟩ <;> rintro rfl <;> obtain rfl := Option.some.inj h
    · exact ⟨_, rfl, order⟩
    · exact ⟨_, rfl, rowWidth, row⟩
    · exact ⟨_, rfl, columnWidth, column⟩
    · exact ⟨_, rfl, blindPolicyOf_code s.blind⟩
  · intro r range value value2
    obtain rfl : l = Rule.bytes n.val r := table_item s.checker.rules n (by decide) (f := Rule.bytes) h
    exact ruleOf_bytes n.val r range value value2
  · intro w hw
    obtain rfl : l = w.bytes := window_item h
    obtain ⟨-, -, locked, revised⟩ := window_head_bits w.fields.enable w.locked w.revised w.fields.kinds.code
    exact ⟨windowOf_bytes w hw, locked, revised, w.hitCount_bytes hw⟩
  · intro hst
    obtain rfl : l = s.seq.stages[k].bytes := table_item s.seq.stages k (by decide) (f := fun _ => Stage.bytes) h
    exact (stageFrom_eq_some_iff _ _).mpr (stageReads_bytes _ hst)
  · intro v t
    refine ⟨?_, ?_, ?_, ?_, ?_, ?_, ?_⟩ <;> rintro rfl <;> obtain rfl := Option.some.inj h
    · change ofBytes 2 [0, _] = _
      cases t.storeMode <;> decide
    · change ofBytes 2 [0, _] = _
      cases t.arbiterMode <;> decide
    · exact boolPair t.captureAll
    · exact boolPair t.captureAllData
    · exact classes_readBack t.classes
    · exact postFill_readBack t.postFill
    · exact boolPair t.markers
  · obtain rfl := Option.some.inj h
    exact alert_readBack s.alert
  · intro c hc
    obtain rfl : l = c.bytes (c.level s.alert.asserted) :=
      table_item s.cues p (by decide) (f := fun _ c => c.bytes (c.level s.alert.asserted)) h
    exact ⟨cue_readBack c _ hc.1, (cue_state_bits c.latch (c.level s.alert.asserted)).2⟩
  · obtain rfl := Option.some.inj h
    exact ⟨_, rfl, ofBytes_toBytes 6 s.now, intervalOf_code s.interval, interval_small s.interval⟩

end Sys2Proof.Machine
end

section
/-! SUPPORT. The content of the read-only items, byte by byte (R39, R62, R82, R85, R190, 11.2). -/
namespace Sys2Proof.Machine

/-! ### Numbers as bytes -/

/-- A number's lowest digits to base 256, the most significant first. -/
def digits (k n : Nat) : List Byte := (List.range k).map fun i => BitVec.ofNat 8 (n / 256 ^ (k - 1 - i))

theorem toBytes_eq_digits {w : Nat} (k : Nat) (v : BitVec w) : toBytes k v = digits k v.toNat := toBytes_digits k v

theorem digits_one (n : Nat) : digits 1 n = [BitVec.ofNat 8 n] := by simp [digits]

theorem byte_eq_digits (b : Byte) : [b] = digits 1 b.toNat := by
  rw [digits_one, BitVec.ofNat_toNat, BitVec.setWidth_eq]

/-- Digits above the last one asked for do not matter. -/
theorem digits_mod (k n : Nat) : digits k (n % 2 ^ (8 * k)) = digits k n := by
  refine List.map_congr_left fun i hi => BitVec.eq_of_toNat_eq ?_
  rw [List.mem_range] at hi
  have base : 256 ^ (k - 1 - i) = 2 ^ (8 * (k - 1 - i)) := by rw [Nat.pow_mul]
  have split : 2 ^ (8 * k) = 2 ^ (8 * (k - 1 - i)) * (2 ^ 8 * 2 ^ (8 * i)) := by
    rw [← Nat.pow_add, ← Nat.pow_add]
    congr 1
    omega
  rw [BitVec.toNat_ofNat, BitVec.toNat_ofNat, base, split, Nat.mod_mul_right_div_self, Nat.mod_mul_right_mod]

theorem natBytes_eq_digits (k n : Nat) : natBytes k n = digits k n := by
  rw [natBytes, toBytes_eq_digits, BitVec.toNat_ofNat, digits_mod]

theorem optBytes_eq_digits {w : Nat} (k : Nat) (x : Option (BitVec w)) :
    optBytes k x = digits k ((x.map BitVec.toNat).getD 0) := by
  cases x with
  | none => exact (toBytes_eq_digits k _).trans (by simp)
  | some v => exact toBytes_eq_digits k v

theorem vector_toList {α : Type} {n : Nat} (v : Vector α n) : v.toList = (List.finRange n).map fun k => v[k] := by
  apply List.ext_getElem (by simp)
  intro i h1 h2
  simp

/-! ### STATUS (R190) -/

/-- The code of the sequencer's state as a number. -/
def SeqState.number : SeqState → Nat
  | .idle => 0
  | .armed => 1
  | .triggered => 2

theorem stateStage_byte (x : SeqState) (n : StageNo) :
    x.code ||| (n.setWidth 8 <<< 4) = BitVec.ofNat 8 (x.number + 16 * n.toNat) := by
  revert n
  cases x <;> decide

theorem flags_byte (a b : Bool) :
    bitAt 0 a ||| bitAt 1 b = BitVec.ofNat 8 ((if a then 1 else 0) + (if b then 2 else 0)) := by
  revert a b
  decide

theorem State.statusBytes_eq (s : State) :
    s.statusBytes =
      [s.chan.code, s.capture.state.code] ++ digits 1 (s.seq.state.number + 16 * s.seq.stage.toNat) ++
        digits 1 ((if s.capture.wrapped then 1 else 0) + (if s.capture.full then 2 else 0)) ++
        digits 2 (s.capture.store.map Record.length).sum ++ digits 2 s.capture.store.length ++
        digits 2 s.alert.latches.toNat := by
  unfold State.statusBytes
  rw [stateStage_byte, flags_byte, natBytes_eq_digits, natBytes_eq_digits, toBytes_eq_digits, digits_one, digits_one]
  rfl

/-! ### SHADOW (R39) -/

/-- The state code, the row and the time of an auto-close of a bank entry. -/
def BankState.parts : BankState → Nat × Row × Slot
  | .unknown => (0, 0, 0)
  | .closed => (1, 0, 0)
  | .opened r => (2, r, 0)
  | .closing r x => (3, r, x)

theorem bank_byte (code : Fin 4) (a b c d : Bool) :
    BitVec.ofNat 8 code.val ||| bitAt 4 a ||| bitAt 5 b ||| bitAt 6 c ||| bitAt 7 d =
      BitVec.ofNat 8 (code.val + (if a then 16 else 0) + (if b then 32 else 0) + (if c then 64 else 0) +
        (if d then 128 else 0)) := by
  revert code a b c d
  decide

theorem weight_isSome {α : Type} (x : Option α) (k : Nat) [Decidable (x = none)] :
    (if x = none then 0 else k) = if x.isSome then k else 0 := by
  cases x <;> simp

theorem bankEntry_spelled (code : Fin 4) (e : Bank) (row : Option Row) (autoClose : Option Slot) :
    [BitVec.ofNat 8 code.val ||| bitAt 4 e.openStamp.isSome ||| bitAt 5 e.closeStamp.isSome |||
       bitAt 6 e.lastReadEffect.isSome ||| bitAt 7 e.lastWriteEnd.isSome] ++
      optBytes 3 row ++ optBytes 6 e.openStamp ++ optBytes 6 e.closeStamp ++
      optBytes 6 e.lastReadEffect ++ optBytes 6 e.lastWriteEnd ++ optBytes 6 autoClose =
    digits 1 (code.val + (if e.openStamp = none then 0 else 16) + (if e.closeStamp = none then 0 else 32) +
        (if e.lastReadEffect = none then 0 else 64) + (if e.lastWriteEnd = none then 0 else 128)) ++
      digits 3 ((row.map BitVec.toNat).getD 0) ++ digits 6 ((e.openStamp.map BitVec.toNat).getD 0) ++
      digits 6 ((e.closeStamp.map BitVec.toNat).getD 0) ++ digits 6 ((e.lastReadEffect.map BitVec.toNat).getD 0) ++
      digits 6 ((e.lastWriteEnd.map BitVec.toNat).getD 0) ++ digits 6 ((autoClose.map BitVec.toNat).getD 0) := by
  simp only [bank_byte, optBytes_eq_digits, weight_isSome, digits_one]

/-- A bank entry in the SHADOW item. -/
theorem Bank.bytes_eq (e : Bank) :
    e.bytes =
      digits 1 (e.state.parts.1 + (if e.openStamp = none then 0 else 16) + (if e.closeStamp = none then 0 else 32) +
          (if e.lastReadEffect = none then 0 else 64) + (if e.lastWriteEnd = none then 0 else 128)) ++
        digits 3 e.state.parts.2.1.toNat ++ digits 6 ((e.openStamp.map BitVec.toNat).getD 0) ++
        digits 6 ((e.closeStamp.map BitVec.toNat).getD 0) ++ digits 6 ((e.lastReadEffect.map BitVec.toNat).getD 0) ++
        digits 6 ((e.lastWriteEnd.map BitVec.toNat).getD 0) ++ digits 6 e.state.parts.2.2.toNat := by
  unfold Bank.bytes Bank.row
  cases e.state with
  | unknown => exact bankEntry_spelled 0 e none none
  | closed => exact bankEntry_spelled 1 e none none
  | opened r => exact bankEntry_spelled 2 e (some r) none
  | closing r x => exact bankEntry_spelled 3 e (some r) (some x)

theorem len_byte (l : BurstLen) : BitVec.ofNat 8 l.beats = if l = .four then 4 else 8 := by cases l <;> rfl

theorem order_byte (o : BeatOrder) : boolByte (o == .exchange) = if o = .linear then 0 else 1 := by cases o <;> rfl

end Sys2Proof.Machine
end

section
/-! SUPPORT. SHADOW and FIRST VIOLATION, and which addresses name an item of which length (R39, R82, R188). -/
namespace Sys2Proof.Machine

/-! ### The mode words of SHADOW (R39) -/

def word0Bytes : Option ModeWord0 → List Byte
  | none => [0, 0, 0, 0]
  | some w => [1, if w.len = .four then 4 else 8, if w.order = .linear then 0 else 1, w.readDelay.setWidth 8]

def word1Bytes : Option ModeWord1 → List Byte
  | none => [0, 0, 0, 0]
  | some w => [1, w.writeDelay.setWidth 8, w.postedDelay.setWidth 8, 0]

def word2Bytes : Option ModeWord2 → List Byte
  | none => [0, 0, 0, 0]
  | some w => [1, if w.maskOn then 1 else 0, 0, 0]

theorem Modes.bytes_eq (m : Modes) : m.bytes = word0Bytes m.word0 ++ word1Bytes m.word1 ++ word2Bytes m.word2 := by
  have word0 : (match m.word0 with
      | none => [0, 0, 0, 0]
      | some w =>
        [1, BitVec.ofNat 8 w.len.beats, boolByte (w.order == .exchange), w.readDelay.setWidth 8]) =
      word0Bytes m.word0 := by
    cases m.word0 with
    | none => rfl
    | some w => simp only [word0Bytes, len_byte, order_byte]
  exact congrArg (· ++ word1Bytes m.word1 ++ word2Bytes m.word2) word0

theorem State.shadowBytes_eq (s : State) :
    s.shadowBytes = ((List.finRange 16).flatMap fun k => s.banks[k].bytes) ++ word0Bytes s.modes.word0 ++
      word1Bytes s.modes.word1 ++ word2Bytes s.modes.word2 := by
  unfold State.shadowBytes
  rw [vector_toList, List.flatMap_map, Modes.bytes_eq, List.append_assoc, List.append_assoc, List.append_assoc]

/-! ### FIRST VIOLATION (R82) -/

/-- The fields of a command as FIRST VIOLATION spells them: kind, bank, row, column, auto-close, word index, value. -/
def Cmd.parts : Cmd → Nat × Nat × Nat × Nat × Bool × Nat × Nat
  | .openBank b r => (0, b.toNat, r.toNat, 0, false, 0, 0)
  | .access .read b c ac => (1, b.toNat, 0, c.toNat, ac, 0, 0)
  | .access .write b c ac => (2, b.toNat, 0, c.toNat, ac, 0, 0)
  | .closeBank b => (3, b.toNat, 0, 0, false, 0, 0)
  | .closeAll => (4, 0, 0, 0, false, 0, 0)
  | .refresh => (5, 0, 0, 0, false, 0, 0)
  | .modeLoad i v => (6, 0, 0, 0, false, i.toNat, v.toNat)
  | .sleepEnter => (7, 0, 0, 0, false, 0, 0)
  | .sleepExit => (8, 0, 0, 0, false, 0, 0)

/-- The violation's own fields: the lowest rule, all of them, and the slot. -/
def FirstViolation.ruleBytes (f : FirstViolation) : List Byte :=
  digits 1 ((((List.finRange 22).find? fun n => f.rules.getLsbD n.val).map Fin.val).getD 0) ++
    (digits 3 f.rules.toNat ++ digits 6 f.stamp.toNat)

/-- A recorded violation is spelled by its command's fields. -/
theorem violation_spelled (f : FirstViolation) (kind : Nat) (bank : BankNo) (row : Option Row) (column : Option Col)
    (autoClose : Bool) (mode : Option (BitVec 2 × BitVec 16)) :
    [1, BitVec.ofNat 8 kind, f.chan.code, bank.setWidth 8] ++ optBytes 3 row ++ optBytes 2 column ++
      [boolByte autoClose] ++ [((mode.map Prod.fst).getD 0).setWidth 8] ++ optBytes 2 (mode.map Prod.snd) ++
      [BitVec.ofNat 8 (((lowest f.rules).map Fin.val).getD 0)] ++ toBytes 3 f.rules ++ toBytes 6 f.stamp =
    digits 1 1 ++ digits 1 kind ++ [f.chan.code] ++ digits 1 bank.toNat ++ digits 3 ((row.map BitVec.toNat).getD 0) ++
      digits 2 ((column.map BitVec.toNat).getD 0) ++ [if autoClose then 1 else 0] ++
      digits 1 ((mode.map Prod.fst).getD 0).toNat ++ digits 2 (((mode.map Prod.snd).map BitVec.toNat).getD 0) ++
      f.ruleBytes := by
  simp only [FirstViolation.ruleBytes, optBytes_eq_digits, toBytes_eq_digits, lowest_eq_find?,
    digits_one, BitVec.ofNat_toNat, List.cons_append, List.nil_append,
    List.append_assoc]
  rfl

theorem firstBytes_eq (f : FirstViolation) :
    firstBytes (some f) =
      digits 1 1 ++ digits 1 f.cmd.parts.1 ++ [f.chan.code] ++ digits 1 f.cmd.parts.2.1 ++
        digits 3 f.cmd.parts.2.2.1 ++ digits 2 f.cmd.parts.2.2.2.1 ++ [if f.cmd.parts.2.2.2.2.1 then 1 else 0] ++
        digits 1 f.cmd.parts.2.2.2.2.2.1 ++ digits 2 f.cmd.parts.2.2.2.2.2.2 ++ f.ruleBytes := by
  obtain ⟨cmd, chan, rules, stamp⟩ := f
  cases cmd with
  | openBank b r => exact violation_spelled ⟨_, chan, rules, stamp⟩ 0 b (some r) none false none
  | access kind b c ac =>
    cases kind with
    | read => exact violation_spelled ⟨_, chan, rules, stamp⟩ 1 b none (some c) ac none
    | write => exact violation_spelled ⟨_, chan, rules, stamp⟩ 2 b none (some c) ac none
  | closeBank b => exact violation_spelled ⟨_, chan, rules, stamp⟩ 3 b none none false none
  | closeAll => exact violation_spelled ⟨_, chan, rules, stamp⟩ 4 0 none none false none
  | refresh => exact violation_spelled ⟨_, chan, rules, stamp⟩ 5 0 none none false none
  | modeLoad i v => exact violation_spelled ⟨_, chan, rules, stamp⟩ 6 0 none none false (some (i, v))
  | sleepEnter => exact violation_spelled ⟨_, chan, rules, stamp⟩ 7 0 none none false none
  | sleepExit => exact violation_spelled ⟨_, chan, rules, stamp⟩ 8 0 none none false none

/-! ### Which addresses name an item (R188, 10.3) -/

/-- The groups and how many indices each has. -/
def groupTable : List (Nat × Nat) :=
  [(0x01, 4), (0x02, 22), (0x03, 16), (0x04, 8), (0x05, 7), (0x06, 1), (0x07, 4), (0x08, 1), (0x10, 1), (0x11, 1),
   (0x12, 1), (0x13, 1), (0x14, 1), (0x15, 1)]

/-- The groups and the length of the value of each. -/
def lengthTable : List (Nat × Nat) :=
  [(0x01, 1), (0x02, 3), (0x03, 35), (0x04, 20), (0x05, 2), (0x06, 3), (0x07, 4), (0x08, 7), (0x10, 10), (0x11, 22),
   (0x12, 23), (0x13, 556), (0x14, 1), (0x15, 4)]

theorem mem_groupTable (group : Byte) (n : Nat) :
    (group.toNat, n) ∈ groupTable ↔ groupIndices group = n ∧ 0 < n := by
  unfold groupIndices
  split
  case h_15 => simp_all [groupTable, eq_comm (a := 0)]
  all_goals
    next hg =>
      rw [hg]
      simp [groupTable]
      omega

theorem mem_lengthTable {group : Byte} {n : Nat} (h : groupBytes group = some n) :
    (group.toNat, n) ∈ lengthTable := by
  unfold groupBytes at h
  split at h
  case h_15 => cases h
  all_goals
    next hg =>
      rw [hg, ← Option.some.inj h]
      decide

theorem State.itemBytes_isSome (s : State) (group index : Byte) :
    (s.itemBytes group index).isSome = true ↔ index.toNat < groupIndices group := by
  unfold State.itemBytes groupIndices
  simp only
  generalize group.toNat = g
  split <;> simp

end Sys2Proof.Machine
end

section
/-! SUPPORT. The length of each item's value, the bytes of each request, and the frames of the port (R182 to R188). -/
namespace Sys2Proof.Machine

/-! ### The length of a value (R188) -/

theorem TraceSettings.bytes_length (t : TraceSettings) (i : Nat) : (t.bytes i).length = 2 := by
  unfold TraceSettings.bytes
  split <;> rfl

theorem State.channelBytes_length (s : State) (i : Nat) : (s.channelBytes i).length = 1 := by
  unfold State.channelBytes
  split <;> rfl

theorem optBytes_length {w : Nat} (k : Nat) (x : Option (BitVec w)) : (optBytes k x).length = k :=
  toBytes_length k _

theorem firstBytes_length (f : Option FirstViolation) : (firstBytes f).length = 23 := by
  cases f with
  | none => rfl
  | some f => simp [firstBytes, optBytes_length]

theorem Bank.bytes_length (e : Bank) : e.bytes.length = 34 := by
  simp [Bank.bytes, optBytes_length]

theorem wordBytes_length (m : Modes) :
    (word0Bytes m.word0).length = 4 ∧ (word1Bytes m.word1).length = 4 ∧ (word2Bytes m.word2).length = 4 := by
  refine ⟨?_, ?_, ?_⟩
  · cases m.word0 <;> rfl
  · cases m.word1 <;> rfl
  · cases m.word2 <;> rfl

theorem State.shadowBytes_length (s : State) : s.shadowBytes.length = 556 := by
  obtain ⟨h0, h1, h2⟩ := wordBytes_length s.modes
  rw [s.shadowBytes_eq]
  simp [List.length_flatMap, Bank.bytes_length, h0, h1, h2]

theorem State.itemBytes_length {s : State} {group index : Byte} {data : List Byte}
    (h : s.itemBytes group index = some data) : groupBytes group = some data.length := by
  have whole {n : Nat} {value : List Byte} {c : Prop} [Decidable c] (e : (if c then some value else none) = some data)
      (l : value.length = n) : some n = some data.length := by
    split at e
    · rw [← Option.some.inj e, l]
    · cases e
  have entry {n : Nat} {α : Type} {x : Option α} {f : α → List Byte} (e : x.map f = some data)
      (l : ∀ a, (f a).length = n) : some n = some data.length := by
    obtain ⟨a, -, rfl⟩ := Option.map_eq_some_iff.mp e
    rw [l]
  unfold State.itemBytes at h
  unfold groupBytes
  simp only at h
  generalize group.toNat = g at h
  split at h
  · exact whole h (s.channelBytes_length _)
  · exact entry h fun _ => rfl
  · exact entry h Window.bytes_length
  · exact entry h Stage.bytes_length
  · exact whole h (s.capture.settings.bytes_length _)
  · exact whole h rfl
  · exact entry h fun _ => rfl
  · exact whole h rfl
  · exact whole h (by simp [State.statusBytes])
  · exact whole h (by simp)
  · exact whole h (firstBytes_length _)
  · exact whole h s.shadowBytes_length
  · exact whole h rfl
  · exact whole h rfl
  · cases h

/-! ### The bytes of a request (R186, 11.1) -/

/-- A WRITE ITEM with its group's value bytes is read as its group's write. -/
theorem requestOf_write {group index : Byte} {value : List Byte} (h : writeBytes group ≤ value.length) :
    requestOf (0x02 :: group :: index :: value) = some (writeOf group index value) := by
  have complete : requestComplete (0x02 :: group :: index :: value) = true := decide_eq_true h
  unfold requestOf
  rw [complete]
  rfl

theorem requestOf_unknown {code : Byte} (h : operandBytes code = none) : requestOf [code] = some (.unknownRequest code) := by
  have complete : requestComplete [code] = true := by simp [requestComplete, h]
  unfold requestOf
  rw [complete]
  refine congrArg some ?_
  simp only
  split
  case h_18 => rfl
  all_goals
    next hc => simp [operandBytes, hc] at h

theorem requestOf_ack (causes : BitVec 16) : requestOf ([0x05] ++ toBytes 2 causes) = some (.ack causes) :=
  congrArg (fun x => some (Instr.ack x)) (ofBytes_toBytes 2 causes)

theorem writeOf_inside {group index : Byte} (value : List Byte) (h : index.toNat < groupIndices group) :
    writeOf group index value =
      match group.toNat with
      | 0x01 =>
        match index.toNat with
        | 0 => .writeAddressMap .order (ofBytes 1 value)
        | 1 => .writeAddressMap .rowWidth (ofBytes 1 value)
        | 2 => .writeAddressMap .columnWidth (ofBytes 1 value)
        | _ => .writeBlindPolicy (ofBytes 1 value)
      | 0x02 => .writeRule index (ofBytes 3 value)
      | 0x03 => .writeWindow index (ofBytes 35 value)
      | 0x04 => .writeStage index (ofBytes 20 value)
      | 0x05 => .writeTraceSetting index (ofBytes 2 value)
      | 0x06 => .writeAlertEnables (ofBytes 3 value)
      | 0x07 => .writeCue index (ofBytes 4 value)
      | 0x08 => .writeTime (ofBytes 7 value)
      | _ => .writeItem group index (value.take (writeBytes group)) := if_neg (Nat.not_le.mpr h)

/-- A general write that no group's row carries out stays itself. -/
theorem writeOf_plain {group index : Byte} {value : List Byte}
    (h : ¬ (1 ≤ group.toNat ∧ group.toNat ≤ 8) ∨ groupIndices group ≤ index.toNat)
    (hl : value.length = writeBytes group) : writeOf group index value = .writeItem group index value := by
  have whole : value.take (writeBytes group) = value := List.take_of_length_le hl.le
  by_cases hi : groupIndices group ≤ index.toNat
  · refine (if_pos hi).trans ?_
    rw [whole]
  · have outside := h.resolve_right hi
    rw [writeOf_inside value (Nat.not_le.mp hi), whole]
    split <;> first | rfl | omega

theorem ofBytes_one (b : Byte) : ofBytes 1 [b] = b := by
  revert b
  decide

/-- The bytes of each request are read as that request. -/
theorem requestOf_requestBytes {c : Instr} {l : List Byte} (hl : requestBytes c = some l) (hwf : c.wf = true)
    (hw : ∀ g i v, c = .writeItem g i v →
      (¬ (1 ≤ g.toNat ∧ g.toNat ≤ 8) ∨ groupIndices g ≤ i.toNat) ∧ v.length = writeBytes g) :
    requestOf l = some c := by
  have no : (none : Option (List Byte)) = some l → requestOf l = some c := nofun
  have write (group index : Byte) (value : List Byte) (hb : writeBytes group ≤ value.length)
      (hi : index.toNat < groupIndices group) (e : writeOf group index value = c)
      (hr : some (0x02 :: group :: index :: value) = some l) : requestOf l = some c := by
    rw [← Option.some.inj hr, requestOf_write hb, e]
  cases c
  case unknownRequest code =>
    obtain rfl := Option.some.inj hl
    exact requestOf_unknown (Option.isNone_iff_eq_none.mp hwf)
  case ack causes =>
    obtain rfl := Option.some.inj hl
    exact requestOf_ack causes
  case writeItem g i v =>
    obtain ⟨outside, length⟩ := hw g i v rfl
    obtain rfl := Option.some.inj hl
    exact (requestOf_write length.ge).trans (congrArg some (writeOf_plain outside length))
  case writeAddressMap item v =>
    cases item
    · exact write 1 0 [v] (le_refl 1) (by decide) (congrArg (Instr.writeAddressMap .order) (ofBytes_one v)) hl
    · exact write 1 1 [v] (le_refl 1) (by decide) (congrArg (Instr.writeAddressMap .rowWidth) (ofBytes_one v)) hl
    · exact write 1 2 [v] (le_refl 1) (by decide) (congrArg (Instr.writeAddressMap .columnWidth) (ofBytes_one v)) hl
  case writeBlindPolicy v =>
    exact write 1 3 [v] (le_refl 1) (by decide) (congrArg Instr.writeBlindPolicy (ofBytes_one v)) hl
  case writeRule i v =>
    have hi := of_decide_eq_true hwf
    exact write 2 i (toBytes 3 v) (le_refl 3) hi ((writeOf_inside _ hi).trans (congrArg (Instr.writeRule i) (ofBytes_toBytes 3 v))) hl
  case writeWindow i v =>
    have hi := of_decide_eq_true hwf
    exact write 3 i (toBytes 35 v) (toBytes_length 35 v).ge hi
      ((writeOf_inside _ hi).trans (congrArg (Instr.writeWindow i) (ofBytes_toBytes 35 v))) hl
  case writeStage i v =>
    have hi := of_decide_eq_true hwf
    exact write 4 i (toBytes 20 v) (toBytes_length 20 v).ge hi
      ((writeOf_inside _ hi).trans (congrArg (Instr.writeStage i) (ofBytes_toBytes 20 v))) hl
  case writeTraceSetting i v =>
    have hi := of_decide_eq_true hwf
    exact write 5 i (toBytes 2 v) (le_refl 2) hi
      ((writeOf_inside _ hi).trans (congrArg (Instr.writeTraceSetting i) (ofBytes_toBytes 2 v))) hl
  case writeAlertEnables v =>
    exact write 6 0 (toBytes 3 v) (le_refl 3) (by decide) (congrArg Instr.writeAlertEnables (ofBytes_toBytes 3 v)) hl
  case writeCue i v =>
    have hi := of_decide_eq_true hwf
    exact write 7 i (toBytes 4 v) (le_refl 4) hi ((writeOf_inside _ hi).trans (congrArg (Instr.writeCue i) (ofBytes_toBytes 4 v))) hl
  case writeTime v =>
    exact write 8 0 (toBytes 7 v) (le_refl 7) (by decide) (congrArg Instr.writeTime (ofBytes_toBytes 7 v)) hl
  all_goals first
    | exact no hl
    | exact (Option.some.inj hl) ▸ rfl

/-! ### A frame on the wire (R182 to R185) -/

/-- Bytes of a response in progress. -/
theorem Port.run_response (p : Port) (n : Nat) (ys : List Byte) (hf : p.frame = .response n) (hb : p.bits = []) :
    p.run (ys.flatMap wireOfByte) = { p with frame := .response (n + ys.length) } := by
  induction ys generalizing p n with
  | nil =>
    rw [List.length_nil, Nat.add_zero, ← hf]
    rfl
  | cons y ys ih =>
    have taken : p.takeByte y = { p with frame := .response (n + 1) } := by simp [Port.takeByte, hf]
    rw [List.flatMap_cons, Port.run_append, Port.run_wireOfByte p y (by rw [hf]; rfl) hb, taken,
      ih { p with frame := .response (n + 1) } (n + 1) rfl hb, List.length_cons, Nat.add_right_comm, ← Nat.add_assoc]

/-- The turnaround byte and the bytes after it. -/
theorem Port.run_turnaround (p : Port) (x : Byte) (ys : List Byte) (hf : p.frame = .turnaround) (hb : p.bits = []) :
    p.run ((x :: ys).flatMap wireOfByte) =
      { p with frame := .response ys.length, reply := if p.reply = .due then .filler else p.reply } := by
  have taken : p.takeByte x =
      { p with frame := .response 0, reply := if p.reply = .due then .filler else p.reply } := by
    simp [Port.takeByte, hf]
  rw [List.flatMap_cons, Port.run_append, Port.run_wireOfByte p x (by rw [hf]; rfl) hb, taken,
    Port.run_response { p with frame := .response 0, reply := if p.reply = .due then .filler else p.reply } 0 ys rfl hb,
    Nat.zero_add]

end Sys2Proof.Machine
end

section
/-! SUPPORT. Reads and frames put together (R182 to R190). -/
namespace Sys2Proof.Machine

/-! ### Frames without effect, and reads -/

theorem exec_frameDiscardedWaiting_some (s : State) {c : Instr} (hp : s.porst = false)
    (hc : s.port.waiting = some c) :
    exec .frameDiscardedWaiting s =
      .next { s with port := { frame := .turnaround, bits := [], waiting := some c, reply := .filler } } := by
  have row : exec .frameDiscardedWaiting s = s.whileUp fun t =>
      match t.port.waiting with
      | none => t
      | some c =>
        { t with port := { frame := .turnaround, bits := [], waiting := some c, reply := .filler } } := rfl
  rw [row, s.whileUp_up _ hp, hc]

theorem State.readItem_eq (s : State) (group index : Byte) :
    s.readItem group index =
      (s, match s.itemBytes group index with
        | some data => { status := .ok, data := data }
        | none => { status := .range, data := [] }) := by
  unfold State.readItem
  cases s.itemBytes group index with
  | none => rfl
  | some data => rfl

theorem State.itemBytes_shadow (s : State) :
    s.itemBytes 0x13 0 = some (((List.finRange 16).flatMap fun k => s.banks[k].bytes) ++ word0Bytes s.modes.word0 ++
      word1Bytes s.modes.word1 ++ word2Bytes s.modes.word2) :=
  congrArg some s.shadowBytes_eq

theorem State.itemBytes_counts (s : State) :
    s.itemBytes 0x11 0 = some ((List.finRange 22).map fun n => BitVec.ofNat 8 s.checker.counts[n]) := by
  refine congrArg some ?_
  rw [vector_toList, List.map_map]
  rfl

theorem State.itemBytes_iff (s : State) (group index : Byte) :
    (s.itemBytes group index).isSome = true ↔
      (group.toNat, index.toNat) ∈ groupTable.flatMap fun g => (List.range g.2).map fun i => (g.1, i) := by
  rw [s.itemBytes_isSome]
  simp only [List.mem_flatMap, List.mem_map, List.mem_range, Prod.mk.injEq, Prod.exists]
  constructor
  · intro h
    exact ⟨group.toNat, groupIndices group, (mem_groupTable group _).mpr ⟨rfl, Nat.zero_lt_of_lt h⟩, _, h, rfl, rfl⟩
  · rintro ⟨g, n, hg, i, hi, rfl, rfl⟩
    rw [((mem_groupTable group n).mp hg).1]
    exact hi

/-! ### Frames on the wire -/

/-- A complete request with none waiting: its answer, in time and late. -/
theorem Port.request_answered (p : Port) (l : List Byte) (x : Byte) (ys : List Byte) (a : Answer)
    (hf : p.frame = .idle) (hc : requestComplete l = true)
    (hl : ∀ k, k < l.length → requestComplete (l.take k) = false) (hw : p.waiting = none) :
    p.run (.select :: l.flatMap wireOfByte) =
      { frame := .turnaround, bits := [], waiting := requestOf l, reply := .due } ∧
    (({ frame := .turnaround, bits := [], waiting := requestOf l, reply := .due : Port }.settle a).run
        ((x :: ys).flatMap wireOfByte)) =
      { frame := .response ys.length, bits := [], waiting := none, reply := .settled a } ∧
    (({ frame := .turnaround, bits := [], waiting := requestOf l, reply := .due : Port }.run
        ((x :: ys).flatMap wireOfByte)).settle a) =
      { frame := .response ys.length, bits := [], waiting := none, reply := .filler } := by
  obtain ⟨c, hr⟩ := Option.isSome_iff_exists.mp (requestOf_isSome hc)
  refine ⟨?_, ?_, ?_⟩
  · rw [Port.run_request p l hf hc hl]
    unfold Port.complete
    rw [hw]
  · rw [hr]
    exact Port.run_turnaround { frame := .turnaround, bits := [], waiting := none, reply := .settled a } x ys rfl rfl
  · rw [hr, Port.run_turnaround { frame := .turnaround, bits := [], waiting := some c, reply := .due } x ys rfl rfl]
    rfl

/-- A complete request behind a waiting one: its frame is discarded. -/
theorem Port.request_discarded (p : Port) (l : List Byte) (x : Byte) (ys : List Byte) (a : Answer) (c : Instr)
    (hf : p.frame = .idle) (hc : requestComplete l = true)
    (hl : ∀ k, k < l.length → requestComplete (l.take k) = false) (hw : p.waiting = some c) :
    p.run (.select :: l.flatMap wireOfByte) =
      { frame := .turnaround, bits := [], waiting := some c, reply := .filler } ∧
    (({ frame := .turnaround, bits := [], waiting := some c, reply := .filler : Port }.run
        ((x :: ys).flatMap wireOfByte)).settle a) =
      { frame := .response ys.length, bits := [], waiting := none, reply := .filler } := by
  constructor
  · rw [Port.run_request p l hf hc hl]
    unfold Port.complete
    rw [hw]
  · rw [Port.run_turnaround { frame := .turnaround, bits := [], waiting := some c, reply := .filler } x ys rfl rfl]
    rfl

theorem State.sdo_of_byte (s : State) (hp : s.porst = false) {b : Byte} (hb : s.port.sdoByte = some b) :
    s.sdo = some (b.getLsbD (7 - s.port.bits.length)) := by
  unfold State.sdo
  rw [hp, hb]
  rfl

theorem State.sdo_of_none (s : State) (h : s.port.sdoByte = none) : s.sdo = none := by
  unfold State.sdo
  rw [h]
  exact ite_self none

/-- Settles O55: each read answers what its item spells, and a frame's phases say what SDO carries. -/
theorem readsChangeNothing : Obligations.ReadsChangeNothing := by
  unfold Obligations.ReadsChangeNothing
  refine ⟨fun s hp => ⟨fun bytes => exec_frameAborted_incomplete s bytes hp, fun c hc =>
      exec_frameDiscardedWaiting_some s hp hc, fun code hs hcode => ?_, fun group index hs => ?_, fun hs =>
      ⟨s.statusBytes, rfl, exec_request (c := .readStatus) rfl hs⟩⟩, fun s => ?_, fun s group index => ?_,
    fun p l x ys a hf hc hl => ?_, fun s => ?_, fun c l hc hwf hw => requestOf_requestBytes hc hwf hw⟩
  · have undefined : ¬ (operandBytes code).isSome = true := by
      rw [operandBytes_none hcode]
      exact Bool.false_ne_true
    exact exec_request (c := .unknownRequest code) (if_neg undefined) hs
  · exact exec_request (c := .readItem group index) (congrArg some (s.readItem_eq group index)) hs
  · intro be opt chan bank
    refine ⟨congrArg some s.statusBytes_eq, s.itemBytes_counts, congrArg some ?_, s.itemBytes_shadow.trans ?_,
      congrArg some (digits_one s.tracker.length).symm, rfl⟩
    · cases s.checker.first with
      | none => rfl
      | some f => exact firstBytes_eq f
    · simp only [Bank.bytes_eq]
      rfl
  · exact ⟨s.itemBytes_iff group index, fun data hd => mem_lengthTable (State.itemBytes_length hd)⟩
  · intro sent rest answered late status
    refine ⟨fun hw => ?_, fun c hw => ?_⟩
    · obtain ⟨hsent, hanswered, hlate⟩ := p.request_answered l x ys a hf hc hl hw
      obtain ⟨c, hr⟩ := Option.isSome_iff_exists.mp (requestOf_isSome hc)
      have settled : (sent.settle a).frame = .turnaround := by
        rw [show sent = _ from hsent, hr]
        rfl
      have unsettled : (sent.deselect.settle a).frame = .idle := by
        rw [show sent = _ from hsent, hr]
        rfl
      have hanswered : answered = _ := (congrArg (fun p => (p.settle a).run rest) hsent).trans hanswered
      have hlate : late = _ := (congrArg (fun p => (p.run rest).settle a) hsent).trans hlate
      refine ⟨hsent, requestOf_isSome hc, ?_, ?_, ?_, ?_, ?_, ?_, ?_, ?_, ?_⟩
      · rw [Port.sdoByte, settled]
        rfl
      · exact congrArg Port.sdoByte hanswered
      · exact congrArg Port.waiting hanswered
      · exact congrArg (fun p => p.deselect.sdoByte) hanswered
      · exact congrArg (fun p => p.deselect.reply) hanswered
      · exact congrArg Port.sdoByte hlate
      · exact congrArg Port.waiting hlate
      · exact congrArg (fun p => p.deselect.waiting) hsent
      · rw [Port.sdoByte, unsettled]
    · obtain ⟨hsent, hlate⟩ := p.request_discarded l x ys a c hf hc hl hw
      have hlate : late = _ := (congrArg (fun p => (p.run rest).settle a) hsent).trans hlate
      exact ⟨hsent, congrArg Port.sdoByte hlate⟩
  · exact ⟨fun h => if_pos h, fun h => s.sdo_of_none (by rw [Port.sdoByte, h]), fun hp b hb => s.sdo_of_byte hp hb⟩

end Sys2Proof.Machine
end

section
/-! SUPPORT. The bytes of a trace record's header, kind by kind (R149 to R153, R193, R194). -/
namespace Sys2Proof.Machine

/-! ### Bits and codes as numbers -/

/-- A bit's weight at its place. -/
def weight (k : Nat) (b : Bool) : Nat := if b then 2 ^ k else 0

theorem setWidth_digit {w : Nat} (v : BitVec w) : [v.setWidth 8] = digits 1 v.toNat := by
  rw [digits_one, BitVec.ofNat_toNat]

/-- The weight of a row's top bit in its byte. -/
def topWeight (row : Option Row) : Nat := 16 * ((row.getD 0).toNat / 65536)

theorem topWeight_eq (row : Option Row) : topWeight row = weight 4 (rowTop row) := by
  have bound := (row.getD 0).isLt
  unfold topWeight rowTop weight
  rw [BitVec.getLsbD, Nat.testBit_eq_decide_div_mod_eq]
  by_cases h : (row.getD 0).toNat / 2 ^ 16 % 2 = 1
  · rw [decide_eq_true h, if_pos rfl]
    omega
  · rw [decide_eq_false h, if_neg Bool.false_ne_true]
    omega

theorem rowLow_eq (row : Option Row) : rowLow row = digits 2 (row.getD 0).toNat := by
  rw [rowLow, toBytes_eq_digits, BitVec.toNat_setWidth, digits_mod]

theorem isSome_eq {α : Type} (x : Option α) [Decidable (x ≠ none)] : x.isSome = decide (x ≠ none) := by
  cases x <;> simp

/-! ### The packed bytes -/

/-- The number of an outcome. -/
def outcomeNo : Option RetireOutcome → Nat
  | some .done => 0
  | some .cut => 1
  | some .abandoned => 2
  | none => 3

/-- The number of an untracked reason. -/
def reasonNo : Option UntrackedReason → Nat
  | some .state => 0
  | some .modeUnset => 1
  | some .full => 2
  | none => 0

theorem accessFlags_byte (w e x c p d : Bool) (o : Option RetireOutcome) :
    bitAt 0 w ||| bitAt 1 e ||| bitAt 2 x ||| bitAt 3 c ||| bitAt 4 p ||| bitAt 5 d ||| (outcomeCode o <<< 6) =
      BitVec.ofNat 8 (weight 0 w + weight 1 e + weight 2 x + weight 3 c + weight 4 p + weight 5 d +
        64 * outcomeNo o) := by
  revert w e x c p d
  rcases o with _ | o
  · decide
  · cases o <;> decide

theorem accessNotes_byte (d r c l : Bool) (u : Option UntrackedReason) :
    bitAt 0 d ||| bitAt 1 r ||| bitAt 2 c ||| bitAt 3 (u ≠ none) |||
        (((u.map UntrackedReason.code).getD 0) <<< 4) ||| bitAt 6 l =
      BitVec.ofNat 8 (weight 0 d + weight 1 r + weight 2 c + weight 3 (u ≠ none) + 16 * reasonNo u + weight 6 l) := by
  revert d r c l
  rcases u with _ | u
  · decide
  · cases u <;> decide

theorem place_byte (bank : BankNo) (t a b c : Bool) :
    bank.setWidth 8 ||| bitAt 4 t ||| bitAt 5 a ||| bitAt 6 b ||| bitAt 7 c =
      BitVec.ofNat 8 (bank.toNat + weight 4 t + weight 5 a + weight 6 b + weight 7 c) := by
  revert bank t a b c
  decide

theorem bankRow_byte (bank : BankNo) (t : Bool) :
    bank.setWidth 8 ||| bitAt 4 t = BitVec.ofNat 8 (bank.toNat + weight 4 t) := by
  revert bank t
  decide

theorem guardPlace_byte (bank : BankNo) (t a b : Bool) :
    bank.setWidth 8 ||| bitAt 4 t ||| bitAt 5 a ||| bitAt 6 b =
      BitVec.ofNat 8 (bank.toNat + weight 4 t + weight 5 a + weight 6 b) := by
  revert bank t a b
  decide

theorem guardFlags_byte (a b c d e : Bool) :
    bitAt 0 a ||| bitAt 1 b ||| bitAt 2 c ||| bitAt 3 d ||| bitAt 4 e =
      BitVec.ofNat 8 (weight 0 a + weight 1 b + weight 2 c + weight 3 d + weight 4 e) := by
  revert a b c d e
  decide

/-- The window named in a GUARD record, as a number. -/
def windowNo : Option (Fin 16) → Nat
  | some k => k.val
  | none => 0

theorem guardWindow_byte (w : Option (Fin 16)) :
    BitVec.ofNat 8 ((w.map Fin.val).getD 0) ||| bitAt 7 (w ≠ none) = BitVec.ofNat 8 (windowNo w + weight 7 (w ≠ none)) := by
  cases w with
  | none => decide
  | some k =>
    revert k
    decide

/-- Two counts up to 8 share a byte. -/
theorem counts_byte {m n : Nat} (hm : m ≤ 8) (hn : n ≤ 8) :
    BitVec.ofNat 8 m ||| (BitVec.ofNat 8 n <<< 4) = BitVec.ofNat 8 (m + 16 * n) := by
  have small : ∀ m n : Fin 9, BitVec.ofNat 8 m.val ||| (BitVec.ofNat 8 n.val <<< 4) =
      BitVec.ofNat 8 (m.val + 16 * n.val) := by decide
  exact small ⟨m, Nat.lt_succ_of_le hm⟩ ⟨n, Nat.lt_succ_of_le hn⟩

/-! ### The header of each kind -/

theorem any_fst_eight (x : Option (BurstLen × BeatOrder)) :
    (x.any fun y => y.1 == .eight) = decide (x.map Prod.fst = some .eight) := by
  rcases x with _ | ⟨len, order⟩
  · rfl
  · cases len <;> rfl

theorem any_snd_exchange (x : Option (BurstLen × BeatOrder)) :
    (x.any fun y => y.2 == .exchange) = decide (x.map Prod.snd = some .exchange) := by
  rcases x with _ | ⟨len, order⟩
  · rfl
  · cases order <;> rfl

/-- Bytes 6 to 15 of an ACCESS header, said by weights. -/
def accessBody (a : AccessRec) : List Byte :=
  digits 1 (weight 0 (a.kind = .write) + weight 1 (a.lenOrder.map Prod.fst = some .eight) +
      weight 2 (a.lenOrder.map Prod.snd = some .exchange) + weight 3 a.autoClose + weight 4 a.posted +
      weight 5 a.data + 64 * outcomeNo a.outcome) ++
    digits 1 (weight 0 a.doubtful + weight 1 a.rowless + weight 2 a.cutFlag + weight 3 (a.untracked ≠ none) +
      16 * reasonNo a.untracked + weight 6 (a.lenOrder ≠ none)) ++
    digits 1 (a.bank.toNat + topWeight a.row) ++ digits 1 (a.beatsSeen + 16 * a.beats.length) ++
    digits 2 (a.row.getD 0).toNat ++ digits 2 a.column.toNat ++ digits 2 a.hits.toNat

theorem accessBody_eq (a : AccessRec) (hb : a.beats.length ≤ 8) (hs : a.beatsSeen ≤ 8) :
    a.headerBytes = accessBody a := by
  have write : (a.kind == .write) = decide (a.kind = .write) := by cases a.kind <;> rfl
  unfold AccessRec.headerBytes accessBody
  simp only [any_fst_eight, any_snd_exchange, write, accessFlags_byte, accessNotes_byte, bankRow_byte,
    counts_byte hs hb, topWeight_eq, rowLow_eq, toBytes_eq_digits, isSome_eq, digits_one, List.cons_append,
    List.nil_append, List.append_assoc]

/-- What a command carries: its kind, bank, row and column. -/
def Cmd.carried : Cmd → Nat × Option BankNo × Option Row × Option Col
  | .openBank b x => (0, some b, some x, none)
  | .access .read b x _ => (1, some b, none, some x)
  | .access .write b x _ => (2, some b, none, some x)
  | .closeBank b => (3, some b, none, none)
  | .closeAll => (4, none, none, none)
  | .refresh => (5, none, none, none)
  | .modeLoad _ _ => (6, none, none, none)
  | .sleepEnter => (7, none, none, none)
  | .sleepExit => (8, none, none, none)

/-- Bytes 6 onwards of a VIOLATION header. -/
def violationBody (rule : Fin 22) (kind : Nat) (bank : Option BankNo) (row : Option Row) (column : Option Col) :
    List Byte :=
  digits 1 rule.val ++ digits 1 kind ++
    digits 1 ((bank.getD 0).toNat + topWeight row + weight 5 (bank ≠ none) + weight 6 (row ≠ none) +
      weight 7 (column ≠ none)) ++
    digits 2 (row.getD 0).toNat ++ digits 2 (column.getD 0).toNat

theorem violation_body (rule : Fin 22) (kind : Nat) (bank : Option BankNo) (row : Option Row) (column : Option Col) :
    [BitVec.ofNat 8 rule.val, BitVec.ofNat 8 kind,
      (bank.getD 0).setWidth 8 ||| bitAt 4 (rowTop row) ||| bitAt 5 bank.isSome ||| bitAt 6 row.isSome |||
        bitAt 7 column.isSome] ++ rowLow row ++ optBytes 2 column =
      violationBody rule kind bank row column := by
  unfold violationBody optBytes
  simp only [place_byte, topWeight_eq, rowLow_eq, toBytes_eq_digits, isSome_eq, digits_one, List.cons_append,
    List.nil_append]

theorem violationBody_eq (rule : Fin 22) (c : Cmd) (stamp : Slot) :
    (Record.violation rule c stamp).headerBytes =
      violationBody rule c.carried.1 c.carried.2.1 c.carried.2.2.1 c.carried.2.2.2 := by
  cases c with
  | openBank b x => exact violation_body rule 0 (some b) (some x) none
  | access kind b x _ =>
    cases kind with
    | read => exact violation_body rule 1 (some b) none (some x)
    | write => exact violation_body rule 2 (some b) none (some x)
  | closeBank b => exact violation_body rule 3 (some b) none none
  | closeAll => exact violation_body rule 4 none none none
  | refresh => exact violation_body rule 5 none none none
  | modeLoad i v => exact violation_body rule 6 none none none
  | sleepEnter => exact violation_body rule 7 none none none
  | sleepExit => exact violation_body rule 8 none none none

/-- Bytes 6 onwards of a GUARD header. -/
def guardBody (g : GuardRec) : List Byte :=
  digits 1 (windowNo g.window + weight 7 (g.window ≠ none)) ++
    digits 1 (weight 0 g.unable + weight 1 g.blind + weight 2 g.blocked + weight 3 g.untracked + weight 4 g.locked) ++
    digits 1 (g.bank.toNat + topWeight g.row + weight 5 (g.row ≠ none) + weight 6 (g.column ≠ none)) ++
    digits 2 (g.row.getD 0).toNat ++ digits 2 (g.column.getD 0) ++ [g.lanes] ++
    digits 1 (g.forced + 16 * g.unprotected)

theorem guardBody_eq (g : GuardRec) (hf : g.forced ≤ 8) (hu : g.unprotected ≤ 8) :
    (Record.guard g).headerBytes = guardBody g := by
  unfold Record.headerBytes guardBody
  simp only [guardWindow_byte, guardFlags_byte, guardPlace_byte, counts_byte hf hu, topWeight_eq, rowLow_eq,
    natBytes_eq_digits, isSome_eq, digits_one, List.cons_append, List.nil_append, List.append_assoc]

/-! ### A record's units -/

/-- The units of a record after its header. -/
def Record.further : Record → List (List Byte)
  | .access a =>
    (if a.kind = .write ∧ a.data = true ∧ a.beats ≠ [] then [maskUnit a.beats] else []) ++ dataUnits a.beats
  | _ => []

theorem Record.units_further (r : Record) : r.units = r.header :: r.further := by
  cases r <;> rfl

theorem Record.header_eq (r : Record) {body : List Byte} (h : r.headerBytes = body) :
    r.header = [r.kindCode, BitVec.ofNat 8 r.length] ++ digits 4 r.stamp.toNat ++ body ++
      List.replicate (10 - body.length) 0 := by
  have stamp : toBytes 4 (r.stamp.setWidth 32) = digits 4 r.stamp.toNat := by
    rw [toBytes_eq_digits, BitVec.toNat_setWidth, digits_mod]
  have length : 16 - ([r.kindCode, BitVec.ofNat 8 r.length] ++ digits 4 r.stamp.toNat ++ body).length =
      10 - body.length := by
    simp [digits]
    omega
  rw [Record.header, h, stamp, padTo, length]

/-- A record with this body and these units after its header is whole. -/
theorem Record.whole (r : Record) {body : List Byte} {masks data : List (List Byte)} (h : r.headerBytes = body)
    (hb : body.length ≤ 10) (hf : r.further = masks ++ data) (hl : r.length = 1 + masks.length + data.length)
    (h6 : r.length ≤ 6) (hu : ∀ u ∈ masks ++ data, u.length = 16) :
    r.units = ([r.kindCode, BitVec.ofNat 8 (1 + masks.length + data.length)] ++ digits 4 r.stamp.toNat ++ body ++
        List.replicate (10 - body.length) 0) :: (masks ++ data) ∧
      r.length = 1 + masks.length + data.length ∧ 1 ≤ r.length ∧ r.length ≤ 6 ∧ ∀ u ∈ r.units, u.length = 16 := by
  have units := r.units_further
  rw [r.header_eq h, hf, hl] at units
  refine ⟨units, hl, r.length_pos, h6, fun u hm => ?_⟩
  rw [units, List.mem_cons] at hm
  obtain rfl | hm := hm
  · simp [digits]
    omega
  · exact hu u hm

/-- An event record is its header alone. -/
theorem Record.whole_event (r : Record) {body : List Byte} (h : r.headerBytes = body) (hb : body.length ≤ 10)
    (hf : r.further = []) (hl : r.length = 1) :
    r.units = ([r.kindCode, BitVec.ofNat 8 1] ++ digits 4 r.stamp.toNat ++ body ++
        List.replicate (10 - body.length) 0) :: [] ∧
      r.length = 1 ∧ 1 ≤ r.length ∧ r.length ≤ 6 ∧ ∀ u ∈ r.units, u.length = 16 :=
  Record.whole r (masks := []) (data := []) h hb hf hl (by rw [hl]; decide) (by simp)

/-! ### Mask and data units -/

/-- The mask unit, place by place. -/
def maskPlaces (beats : List (CapturedBeat × LaneSet)) : List Byte :=
  ((List.range 8).map fun i => ((beats[i]?).bind fun x => x.1.mask).getD 0) ++
    (List.range 8).map fun i => ((beats[i]?).map fun x => x.2).getD 0

theorem maskUnit_places (beats : List (CapturedBeat × LaneSet)) (h : beats.length ≤ 8) :
    maskUnit beats = maskPlaces beats := by
  have mask (i : Nat) : ((beats[i]?).map fun b => b.1.mask.getD 0).getD 0 =
      ((beats[i]?).bind fun x => x.1.mask).getD 0 := by
    cases beats[i]? <;> rfl
  unfold maskUnit maskPlaces
  rw [padTo_places _ _ (by simpa using h), padTo_places _ _ (by simpa using h)]
  simp only [List.getElem?_map, mask]

/-- Half a data unit. -/
def dataHalf (beats : List (CapturedBeat × LaneSet)) (i : Nat) : List Byte :=
  digits 8 (((beats[i]?).map fun x => x.1.data.toNat).getD 0)

theorem dataHalf_eq (beats : List (CapturedBeat × LaneSet)) (i : Nat) :
    toBytes 8 ((beats[i]?.map fun x => x.1.data).getD 0) = dataHalf beats i := by
  unfold dataHalf
  cases beats[i]? with
  | none => exact (toBytes_eq_digits 8 _).trans (by simp)
  | some b => exact toBytes_eq_digits 8 _

theorem dataUnits_halves (beats : List (CapturedBeat × LaneSet)) :
    dataUnits beats = (List.range ((beats.length + 1) / 2)).map fun u =>
      dataHalf beats (2 * u) ++ dataHalf beats (2 * u + 1) := by
  rw [dataUnits_places]
  simp only [dataHalf_eq]

end Sys2Proof.Machine
end

section
/-! SUPPORT. Trace records as units, put together (R149 to R153, R193, R194). -/
namespace Sys2Proof.Machine

/-- The mask unit of an ACCESS record that has one. -/
def accessMasks (a : AccessRec) : List (List Byte) :=
  if a.kind = .write ∧ a.data = true ∧ a.beats ≠ [] then [maskPlaces a.beats] else []

/-- The data units of an ACCESS record. -/
def accessData (a : AccessRec) : List (List Byte) :=
  (List.range ((a.beats.length + 1) / 2)).map fun u => dataHalf a.beats (2 * u) ++ dataHalf a.beats (2 * u + 1)

theorem access_further (a : AccessRec) (hb : a.beats.length ≤ 8) :
    (Record.access a).further = accessMasks a ++ accessData a := by
  have further : (Record.access a).further =
      (if a.kind = .write ∧ a.data = true ∧ a.beats ≠ [] then [maskUnit a.beats] else []) ++ dataUnits a.beats := rfl
  unfold accessMasks accessData
  rw [further, maskUnit_places _ hb, dataUnits_halves]

theorem accessMasks_length (a : AccessRec) :
    (accessMasks a).length = if a.kind = .write ∧ a.data = true ∧ a.beats ≠ [] then 1 else 0 := by
  unfold accessMasks
  split <;> rfl

theorem accessData_length (a : AccessRec) : (accessData a).length = (a.beats.length + 1) / 2 := by
  simp [accessData]

theorem access_length (a : AccessRec) :
    (Record.access a).length = 1 + (accessMasks a).length + (accessData a).length := by
  rw [accessMasks_length, accessData_length]
  rfl

theorem access_short (a : AccessRec) (hb : a.beats.length ≤ 8) : (Record.access a).length ≤ 6 := by
  have masks : (accessMasks a).length ≤ 1 := by
    rw [accessMasks_length]
    split <;> decide
  rw [access_length, accessData_length]
  omega

theorem access_units_whole (a : AccessRec) : ∀ u ∈ accessMasks a ++ accessData a, u.length = 16 := by
  intro u hu
  obtain hu | hu := List.mem_append.mp hu
  · unfold accessMasks at hu
    split at hu
    · rw [List.mem_singleton.mp hu]
      simp [maskPlaces]
    · cases hu
  · obtain ⟨k, -, rfl⟩ := List.mem_map.mp hu
    simp [dataHalf, digits]

theorem accessBody_length (a : AccessRec) : (accessBody a).length = 10 := by
  simp [accessBody, digits]

/-- Settles O46: each kind's header is its body, and an ACCESS record's further units are its masks and data. -/
theorem recordsAreWholeUnits : Obligations.RecordsAreWholeUnits := by
  unfold Obligations.RecordsAreWholeUnits
  intro r ha hg
  cases r with
  | access a =>
    obtain ⟨hb, hs⟩ := ha a rfl
    exact Record.whole (.access a) (accessBody_eq a hb hs) (accessBody_length a).le (access_further a hb)
      (access_length a) (access_short a hb) (access_units_whole a)
  | violation rule c stamp =>
    exact Record.whole_event _ (violationBody_eq rule c stamp) (by simp) rfl rfl
  | guard g =>
    obtain ⟨hf, hu⟩ := hg g rfl
    exact Record.whole_event _ (guardBody_eq g hf hu) (by simp) rfl rfl
  | stage source target cause stamp =>
    have places : [source.setWidth 8, target.setWidth 8] = digits 1 source.toNat ++ digits 1 target.toNat := by
      rw [← setWidth_digit, ← setWidth_digit]
      rfl
    exact Record.whole_event (.stage source target cause stamp) (congrArg (· ++ [_]) places) (by simp) rfl rfl
  | cue p e stamp =>
    have code : e.code = if e = .rising then 0 else 1 := by cases e <;> rfl
    have bytes : (Record.cue p e stamp).headerBytes = digits 1 p.toNat ++ [if e = .rising then 0 else 1] := by
      rw [← setWidth_digit, ← code]
      rfl
    exact Record.whole_event _ bytes (by simp) rfl rfl
  | channel e stamp => exact Record.whole_event (.channel e stamp) rfl (by simp) rfl rfl
  | mark stamp =>
    exact Record.whole_event (.mark stamp) (toBytes_eq_digits 6 stamp) (by simp) rfl rfl
  | gap q n stamp =>
    exact Record.whole_event (.gap q n stamp) (congrArg (_ :: ·) (natBytes_eq_digits 2 n)) (by simp) rfl rfl

end Sys2Proof.Machine
end

section
/-! SUPPORT. Capture started and stopped, the writer's unit, and the arbiter's pick, field by field (R141 to R145,
R156 to R161). -/
namespace Sys2Proof.Machine

/-! ### Start and stop (R141, R142) -/

/-- The GAP record that a queue's lost count makes at a start, if it is not 0 (R156). -/
def State.gapAtStart (s : State) (q : QueueId) : List Record :=
  if (s.capture.queue q).lost = 0 then [] else [.gap q (s.capture.queue q).lost s.now]

theorem State.queueAtStart_event (s : State) :
    s.queueAtStart .event = { records := s.capture.noteRecords ++ s.gapAtStart .event, lost := 0 } := by
  unfold State.queueAtStart Capture.noteRecords
  cases s.capture.note <;> rfl

theorem State.queueAtStart_other (s : State) {q : QueueId} (h : q ≠ .event) :
    s.queueAtStart q = { records := s.gapAtStart q, lost := 0 } := by
  unfold State.queueAtStart
  cases q with
  | event => exact absurd rfl h
  | access => cases s.capture.note <;> rfl
  | marker => cases s.capture.note <;> rfl

/-- Settles O43: a start that is one is the started capture, a stop that is one the entry into STOPPED. -/
theorem captureStartsAndStops : Obligations.CaptureStartsAndStops := by
  unfold Obligations.CaptureStartsAndStops
  intro s ok note gap
  refine ⟨fun hr => ⟨fun hs => ?_, fun hs => ?_⟩, fun hr => ⟨fun hs => ?_, fun hs hi => ?_⟩⟩
  · have same := s.startCapture_running hr
    exact exec_request (c := .captureStart) (congrArg (fun t => some (t, Answer.ok)) same) hs
  · have stopped : s.stopCapture = s.enterStopped := if_pos hr
    exact ⟨_, exec_request (c := .captureStop) (congrArg (fun t => some (t, Answer.ok)) stopped) hs, rfl, rfl, rfl, rfl⟩
  · have same : s.stopCapture = s := if_neg (by rw [hr]; exact Bool.false_ne_true)
    exact exec_request (c := .captureStop) (congrArg (fun t => some (t, Answer.ok)) same) hs
  · obtain ⟨hbounds, -⟩ := s.capture.inv_iff.mp hi
    have started := s.startCapture_eq hr fun q => (hbounds.queues q).empty hr
    refine ⟨_, exec_request (c := .captureStart) (congrArg (fun t => some (t, Answer.ok)) started) hs, ?_, rfl, rfl⟩
    have spelled : s.capture.noteRecords = note := by
      unfold Capture.noteRecords
      simp only [note]
      cases s.capture.note <;> rfl
    change s.startedCapture = _
    unfold State.startedCapture
    rw [s.queueAtStart_event, s.queueAtStart_other (q := .access) nofun, s.queueAtStart_other (q := .marker) nofun, spelled]
    rfl

/-! ### A unit in POST (R144) -/

/-- A unit that is not the last of POST. -/
theorem Capture.countUnit_notLast (c : Capture) (h : ¬ (c.state = .post ∧ c.postCounter ≤ 1)) :
    c.countUnit = { c with postCounter := if c.state = .post then c.postCounter - 1 else c.postCounter } := by
  unfold Capture.countUnit
  by_cases hp : c.state = .post
  · rw [if_pos hp, if_pos hp]
    exact if_neg fun hl => h ⟨hp, hl⟩
  · rw [if_neg hp, if_neg hp]

/-- The last unit of POST stops capture. -/
theorem Capture.countUnit_last (c : Capture) (h : c.state = .post ∧ c.postCounter ≤ 1) :
    c.countUnit = Capture.enterStopped { c with postCounter := c.postCounter - 1 } :=
  (if_pos h.1).trans (if_pos h.2)

theorem Capture.countUnit_kept (c : Capture) :
    c.countUnit.writer = c.writer ∧ c.countUnit.store = c.store ∧ c.countUnit.wrapped = c.wrapped ∧
      c.countUnit.full = c.full ∧ c.countUnit.rotation = c.rotation := by
  by_cases h : c.state = .post ∧ c.postCounter ≤ 1
  · rw [c.countUnit_last h]
    exact ⟨rfl, rfl, rfl, rfl, rfl⟩
  · rw [c.countUnit_notLast h]
    exact ⟨rfl, rfl, rfl, rfl, rfl⟩

/-- The counter after a unit, the last of POST or not. -/
theorem Capture.countUnit_counter (c : Capture) :
    c.countUnit.postCounter = if c.state = .post then c.postCounter - 1 else c.postCounter := by
  by_cases h : c.state = .post ∧ c.postCounter ≤ 1
  · rw [c.countUnit_last h, if_pos h.1]
    rfl
  · rw [c.countUnit_notLast h]

theorem Capture.queue_postCounter (c : Capture) (n : Nat) (q : QueueId) :
    ({ c with postCounter := n } : Capture).queue q = c.queue q := by
  cases q <;> rfl

theorem Capture.countUnit_going (c : Capture) (h : ¬ (c.state = .post ∧ c.postCounter ≤ 1)) :
    c.countUnit.state = c.state ∧ ∀ q, c.countUnit.queue q = c.queue q := by
  rw [c.countUnit_notLast h]
  exact ⟨rfl, c.queue_postCounter _⟩

theorem Capture.countUnit_stopped (c : Capture) (h : c.state = .post ∧ c.postCounter ≤ 1) :
    c.countUnit.state = .stopped ∧ ∀ q, c.countUnit.queue q = (c.queue q).discard := by
  rw [c.countUnit_last h]
  refine ⟨rfl, fun q => ?_⟩
  rw [Capture.queue_enterStopped, Capture.queue_postCounter]

/-! ### The writer's unit (R158) -/

theorem Capture.advanceWriter_kept (c : Capture) :
    c.advanceWriter.state = c.state ∧ c.advanceWriter.postCounter = c.postCounter ∧
      c.advanceWriter.wrapped = c.wrapped ∧ c.advanceWriter.full = c.full ∧
      c.advanceWriter.rotation = c.rotation ∧ ∀ q, c.advanceWriter.queue q = c.queue q := by
  cases hw : c.writer with
  | none =>
    have same : c.advanceWriter = c := by simp [Capture.advanceWriter, hw]
    rw [same]
    exact ⟨rfl, rfl, rfl, rfl, rfl, fun _ => rfl⟩
  | some w =>
    rw [Capture.advanceWriter_eq hw]
    split
    · exact ⟨rfl, rfl, rfl, rfl, rfl, fun q => by cases q <;> rfl⟩
    · exact ⟨rfl, rfl, rfl, rfl, rfl, fun q => by cases q <;> rfl⟩

/-- Trace capture after a unit written of the record in progress. -/
def Capture.unitWritten (c : Capture) : Capture := c.advanceWriter.countUnit

theorem Capture.unitWritten_kept (c : Capture) :
    c.unitWritten.wrapped = c.wrapped ∧ c.unitWritten.full = c.full ∧ c.unitWritten.rotation = c.rotation ∧
      c.unitWritten.postCounter = if c.state = .post then c.postCounter - 1 else c.postCounter := by
  obtain ⟨state, counter, wrapped, full, rotation, -⟩ := c.advanceWriter_kept
  obtain ⟨-, -, wrapped', full', rotation'⟩ := c.advanceWriter.countUnit_kept
  have counter' := c.advanceWriter.countUnit_counter
  rw [state, counter] at counter'
  exact ⟨wrapped'.trans wrapped, full'.trans full, rotation'.trans rotation, counter'⟩

theorem Capture.unitWritten_going (c : Capture) (h : ¬ (c.state = .post ∧ c.postCounter ≤ 1)) :
    c.unitWritten.state = c.state ∧ ∀ q, c.unitWritten.queue q = c.queue q := by
  obtain ⟨state, counter, -, -, -, queues⟩ := c.advanceWriter_kept
  obtain ⟨state', queues'⟩ := c.advanceWriter.countUnit_going (by rwa [state, counter])
  exact ⟨state'.trans state, fun q => (queues' q).trans (queues q)⟩

theorem Capture.unitWritten_stopped (c : Capture) (h : c.state = .post ∧ c.postCounter ≤ 1) :
    c.unitWritten.state = .stopped ∧ ∀ q, c.unitWritten.queue q = (c.queue q).discard := by
  obtain ⟨state, counter, -, -, -, queues⟩ := c.advanceWriter_kept
  obtain ⟨state', queues'⟩ := c.advanceWriter.countUnit_stopped (by rwa [state, counter])
  refine ⟨state', fun q => ?_⟩
  rw [← queues q]
  exact queues' q

theorem Capture.unitWritten_more {c : Capture} {w : Writer} (hw : c.writer = some w)
    (h : w.written + 1 < w.record.length) :
    c.unitWritten.writer = some { w with written := w.written + 1 } ∧ c.unitWritten.store = c.store := by
  obtain ⟨writer, store, -⟩ := c.advanceWriter.countUnit_kept
  have advanced := (Capture.advanceWriter_eq hw).trans (if_neg (Nat.not_le.mpr h))
  exact ⟨writer.trans (congrArg Capture.writer advanced), store.trans (congrArg Capture.store advanced :)⟩

theorem Capture.unitWritten_last {c : Capture} {w : Writer} (hw : c.writer = some w)
    (h : w.record.length ≤ w.written + 1) :
    c.unitWritten.writer = none ∧ c.unitWritten.store = c.store ++ [w.record] := by
  obtain ⟨writer, store, -⟩ := c.advanceWriter.countUnit_kept
  have advanced := (Capture.advanceWriter_eq hw).trans (if_pos h)
  exact ⟨writer.trans (congrArg Capture.writer advanced), store.trans (congrArg Capture.store advanced :)⟩

theorem State.unitTurn_writes (s : State) {w : Writer} (hu : s.turns.unit = false) (hw : s.capture.writer = some w) :
    s.unitTurn = { s with capture := s.capture.unitWritten, turns := { s.turns with unit := true } } := by
  have busy : ¬ s.capture.writer.isNone = true := by simp [hw]
  exact (if_neg (by rw [hu]; exact Bool.false_ne_true)).trans (if_neg busy)

end Sys2Proof.Machine
end

section
/-! SUPPORT. The arbiter's pick, field by field (R157 to R161), and the writer's unit put together with it. -/
namespace Sys2Proof.Machine

/-! ### The fewest oldest records (R161) -/

theorem discardOldest_drop (n : Nat) (h : n ≤ 4096) (l : List Record) :
    ∃ k, k ≤ l.length ∧ discardOldest n l = l.drop k ∧ n ≤ freeUnits (l.drop k) ∧
      ∀ j, j < k → freeUnits (l.drop j) < n := by
  induction l with
  | nil => exact ⟨0, Nat.le_refl 0, rfl, h, fun j hj => absurd hj j.not_lt_zero⟩
  | cons r rest ih =>
    by_cases hr : n ≤ freeUnits (r :: rest)
    · exact ⟨0, Nat.zero_le _, if_pos hr, hr, fun j hj => absurd hj j.not_lt_zero⟩
    · obtain ⟨k, hk, same, room, fewest⟩ := ih
      refine ⟨k + 1, Nat.succ_le_succ hk, (if_neg hr).trans same, room, fun j hj => ?_⟩
      cases j with
      | zero => exact Nat.not_le.mp hr
      | succ j => exact fewest j (Nat.lt_of_succ_lt_succ hj)

/-! ### The queues of a pick -/

/-- The picked queue once its lost count has entered the place freed (R156). -/
def Staging.refilled (now : Slot) (q : QueueId) (lost : Nat) (rest : List Record) : Staging :=
  { records := rest ++ if lost = 0 then [] else [.gap q lost now], lost := 0 }

/-- Trace capture with a record begun: its space settled, its queue refilled, and no unit written yet. -/
theorem Capture.begun_picked (c : Capture) (now : Slot) {q : QueueId} {r : Record} {rest : List Record}
    (hr : c.running = true) (hl : (c.queue q).records = r :: rest) (hp : (c.queue q).records.length ≤ q.places) :
    (c.picked q rest).begun now q r =
      { (c.picked q rest).setQueue q (Staging.refilled now q (c.queue q).lost rest) with
        store := discardOldest r.length c.store
        wrapped := c.wrapped || (discardOldest r.length c.store).length < c.store.length
        writer := some { record := r, written := 0 } } := by
  have queue := c.picked_queue_same q rest
  have room : ((c.picked q rest).queue q).records.length < q.places := by
    rw [queue]
    rw [hl] at hp
    exact hp
  rw [Capture.begun_eq (c.picked q rest) now q r ((c.picked_running q rest).trans hr) room, queue, c.picked_store,
    c.picked_wrapped]
  rfl

theorem Capture.queue_begun (c : Capture) (q : QueueId) (x : Staging) (p : QueueId) (store : List Record)
    (wrapped : Bool) (writer : Option Writer) :
    ({ c.setQueue q x with store := store, wrapped := wrapped, writer := writer } : Capture).queue p =
      (c.setQueue q x).queue p := by
  cases p <;> rfl

theorem Capture.picked_rotation (c : Capture) (q : QueueId) (rest : List Record) :
    (c.picked q rest).rotation =
      match c.settings.arbiterMode with
      | .fixed => c.rotation
      | .rotating => c.rotation.filter (fun x => x != q) ++ [q] := by
  cases hm : c.settings.arbiterMode with
  | fixed => simp [Capture.picked, Capture.rotate, hm]
  | rotating => simp [Capture.picked, Capture.rotate, hm]

/-! ### A pick without space (R160) -/

theorem raiseLost_returned :
    (fun (n : Nat) (x : Record) => raiseLost n x.returned) = fun n x => min (n + match x with
      | .gap _ m _ => m
      | _ => 0) 65535 := by
  funext n x
  cases x <;> rfl

/-- The queues of a pick that finds no space are discarded, the picked record's number too. -/
theorem Capture.queue_full (c : Capture) (q : QueueId) (r : Record) (rest : List Record) :
    (((c.picked q rest).returned q r).enterStopped.queue q =
      { records := [], lost := (r :: rest).foldl (fun n x => raiseLost n x.returned) (c.queue q).lost }) ∧
    ∀ p, p ≠ q → ((c.picked q rest).returned q r).enterStopped.queue p = (c.queue p).discard := by
  refine ⟨?_, fun p hp => ?_⟩
  · rw [Capture.queue_enterStopped, Capture.returned, Capture.queue_setQueue_same, c.picked_queue_same]
    rfl
  · rw [Capture.queue_enterStopped, Capture.returned, Capture.queue_setQueue_other _ _ hp, c.picked_queue_other _ hp]

/-! ### The two picks -/

theorem State.pickTurn_eq (s : State) (hp : s.turns.pick = false) :
    s.pickTurn = { s.pick with turns := { s.pick.turns with pick := true } } :=
  if_neg (by rw [hp]; exact Bool.false_ne_true)

theorem State.pick_full (s : State) {q : QueueId} {r : Record} {rest : List Record}
    (hr : s.capture.running = true) (hw : s.capture.writer = none) (hu : s.turns.unit = false)
    (hq : s.capture.chosen = some q) (hl : (s.capture.queue q).records = r :: rest)
    (hstop : s.capture.settings.storeMode = .stop) (hfull : freeUnits s.capture.store < r.length) :
    s.pick = (s.setCapture { ((s.capture.picked q rest).returned q r).enterStopped with full := true }).setLatch
      .traceFull := by
  rw [s.pick_eq hr hw hu hq hl, if_pos ⟨hstop, hfull⟩, State.stopFull_eq]
  rfl

theorem State.pick_begins (s : State) {q : QueueId} {r : Record} {rest : List Record}
    (hr : s.capture.running = true) (hw : s.capture.writer = none) (hu : s.turns.unit = false)
    (hq : s.capture.chosen = some q) (hl : (s.capture.queue q).records = r :: rest)
    (hroom : s.capture.settings.storeMode = .wrap ∨ r.length ≤ freeUnits s.capture.store) :
    s.pick =
      { s with
        capture := ((s.capture.picked q rest).begun s.now q r).unitWritten
        turns := { s.turns with unit := true } } := by
  have room : ¬ (s.capture.settings.storeMode = .stop ∧ freeUnits s.capture.store < r.length) := by
    rintro ⟨hstop, hfull⟩
    obtain hwrap | hle := hroom
    · rw [hstop] at hwrap
      cases hwrap
    · exact absurd hle (Nat.not_le.mpr hfull)
  rw [s.pick_eq hr hw hu hq hl, if_neg room, State.beginRecord_eq]
  rfl

/-- Trace capture after a pick that begins a record. -/
theorem Capture.picked_begun (c : Capture) (now : Slot) {q : QueueId} {r : Record} {rest : List Record}
    (hr : c.running = true) (hl : (c.queue q).records = r :: rest) (hp : (c.queue q).records.length ≤ q.places) :
    ((c.picked q rest).begun now q r).state = c.state ∧
    ((c.picked q rest).begun now q r).postCounter = c.postCounter ∧
    ((c.picked q rest).begun now q r).full = c.full ∧
    ((c.picked q rest).begun now q r).rotation = (c.picked q rest).rotation ∧
    ((c.picked q rest).begun now q r).store = discardOldest r.length c.store ∧
    ((c.picked q rest).begun now q r).wrapped =
      (c.wrapped || (discardOldest r.length c.store).length < c.store.length) ∧
    ((c.picked q rest).begun now q r).writer = some { record := r, written := 0 } ∧
    ((c.picked q rest).begun now q r).queue q = Staging.refilled now q (c.queue q).lost rest ∧
    ∀ p, p ≠ q → ((c.picked q rest).begun now q r).queue p = c.queue p := by
  rw [c.begun_picked now hr hl hp]
  refine ⟨?_, ?_, ?_, ?_, rfl, rfl, rfl, ?_, fun p hpq => ?_⟩
  · exact (Capture.setQueue_state _ _ _).trans (c.picked_state q rest)
  · exact (Capture.setQueue_postCounter _ _ _).trans (c.picked_postCounter q rest)
  · exact (Capture.setQueue_full _ _ _).trans (c.picked_full q rest)
  · exact Capture.setQueue_rotation _ _ _
  · rw [Capture.queue_begun, Capture.queue_setQueue_same]
  · rw [Capture.queue_begun, Capture.queue_setQueue_other _ _ hpq, c.picked_queue_other _ hpq]

theorem Staging.refilled_eq (now : Slot) (q : QueueId) (lost : Nat) (rest : List Record) :
    Staging.refilled now q lost rest =
      if lost = 0 then { records := rest, lost := 0 } else { records := rest ++ [.gap q lost now], lost := 0 } := by
  unfold Staging.refilled
  by_cases h : lost = 0
  · rw [if_pos h, if_pos h, List.append_nil]
  · rw [if_neg h, if_neg h]

theorem State.pick_rotation (s : State) {q : QueueId} {r : Record} {rest : List Record}
    (hr : s.capture.running = true) (hw : s.capture.writer = none) (hu : s.turns.unit = false)
    (hq : s.capture.chosen = some q) (hl : (s.capture.queue q).records = r :: rest)
    (hp : (s.capture.queue q).records.length ≤ q.places) :
    s.pick.capture.rotation =
      match s.capture.settings.arbiterMode with
      | .fixed => s.capture.rotation
      | .rotating => s.capture.rotation.filter (fun x => x ≠ q) ++ [q] := by
  have picked : s.pick.capture.rotation = (s.capture.picked q rest).rotation := by
    by_cases hfull : s.capture.settings.storeMode = .stop ∧ freeUnits s.capture.store < r.length
    · rw [s.pick_full hr hw hu hq hl hfull.1 hfull.2]
      exact Capture.setQueue_rotation _ _ _
    · have hroom : s.capture.settings.storeMode = .wrap ∨ r.length ≤ freeUnits s.capture.store := by
        cases hm : s.capture.settings.storeMode with
        | wrap => exact .inl rfl
        | stop => exact .inr (Nat.not_lt.mp fun h => hfull ⟨hm, h⟩)
      obtain ⟨-, -, -, rotation, -⟩ := s.capture.picked_begun s.now hr hl hp
      obtain ⟨-, -, rotation', -⟩ := ((s.capture.picked q rest).begun s.now q r).unitWritten_kept
      rw [s.pick_begins hr hw hu hq hl hroom]
      exact rotation'.trans rotation
  have differs : (fun x : QueueId => x != q) = fun x => decide (x ≠ q) := by
    funext x
    exact Bool.eq_iff_iff.mpr (by simp)
  cases hm : s.capture.settings.arbiterMode with
  | fixed => rw [picked, s.capture.picked_rotation, hm]
  | rotating => rw [picked, s.capture.picked_rotation, hm, differs]

/-- The state after a pick that finds no space (R160). -/
theorem State.pick_full_fields (s : State) {q : QueueId} {r : Record} {rest : List Record} {t : State}
    (hw : s.capture.writer = none)
    (ht : t = (s.setCapture { ((s.capture.picked q rest).returned q r).enterStopped with full := true }).setLatch
      .traceFull) :
    t.capture.state = .stopped ∧ t.capture.full = true ∧
    t.alert = { s.alert with latches := s.alert.latches ||| BitVec.twoPow 10 4 } ∧
    t.capture.store = s.capture.store ∧ t.capture.writer = none ∧ t.turns = s.turns ∧
    t.capture.postCounter = s.capture.postCounter ∧ t.capture.wrapped = s.capture.wrapped ∧
    (∀ x, x ≠ q → t.capture.queue x = (s.capture.queue x).discard) ∧
    t.capture.queue q =
      { records := []
        lost := (r :: rest).foldl (fun n x => raiseLost n x.returned) (s.capture.queue q).lost } := by
  obtain ⟨own, others⟩ := s.capture.queue_full q r rest
  have queue (x : QueueId) : t.capture.queue x = ((s.capture.picked q rest).returned q r).enterStopped.queue x := by
    rw [ht]
    cases x <;> rfl
  refine ⟨by rw [ht]; rfl, by rw [ht]; rfl, by rw [ht]; rfl, ?_, ?_, by rw [ht]; rfl, ?_, ?_, fun x hx => ?_, ?_⟩
  · rw [ht]
    exact (Capture.setQueue_store _ _ _).trans (s.capture.picked_store q rest)
  · rw [ht]
    exact (Capture.setQueue_writer _ _ _).trans ((s.capture.picked_writer q rest).trans hw)
  · rw [ht]
    exact (Capture.setQueue_postCounter _ _ _).trans (s.capture.picked_postCounter q rest)
  · rw [ht]
    exact (Capture.setQueue_wrapped _ _ _).trans (s.capture.picked_wrapped q rest)
  · exact (queue x).trans (others x hx)
  · exact (queue q).trans own

/-- Settles O45: the unit by whether it is the record's last and POST's last, the pick by whether there is space. -/
theorem recordsArePickedAndWritten : Obligations.RecordsArePickedAndWritten := by
  unfold Obligations.RecordsArePickedAndWritten
  refine ⟨fun s w hp hu hw => ?_, fun s q r rest hp hpick hu hr hw hq hl hplaces hfill h6 => ?_⟩
  · obtain ⟨wrapped, full, rotation, counter⟩ := s.capture.unitWritten_kept
    have written : exec .unitWrite s = _ :=
      (exec_up (c := .unitWrite) (f := State.unitTurn) rfl hp).trans (congrArg _ (s.unitTurn_writes hu hw))
    refine ⟨_, written, rfl, Capture.unitWritten_more hw, Capture.unitWritten_last hw, wrapped, full, rotation, rfl,
      fun hs => ?_, fun hs => ?_, fun hs => ?_⟩
    · have going := s.capture.unitWritten_going fun h => hs h.1
      exact ⟨going.1, counter.trans (if_neg hs)⟩
    · exact (s.capture.unitWritten_going fun h => hs.elim (· h.1) fun h1 => absurd h.2 (Nat.not_le.mpr h1)).2
    · refine ⟨counter.trans (if_pos hs), fun h1 => ?_, fun h1 => ?_⟩
      · exact (s.capture.unitWritten_going fun h => absurd h.2 (Nat.not_le.mpr h1)).1.trans hs
      · obtain ⟨state, queues⟩ := s.capture.unitWritten_stopped ⟨hs, h1⟩
        refine ⟨state, fun x => ⟨queues x, ?_⟩⟩
        exact congrArg Staging.records (queues x)
  · intro lost after lastOfPost
    have chosen : s.capture.chosen = some q := hq
    have turn : exec .arbiterPick s = _ :=
      (exec_up (c := .arbiterPick) (f := State.pickTurn) rfl hp).trans (congrArg _ (s.pickTurn_eq hpick))
    refine ⟨_, turn, rfl, ?_, fun hstop hfull => ?_, fun hroom => ?_⟩
    · exact s.pick_rotation hr hw hu chosen hl hplaces
    · obtain ⟨state, full, alert, store, writer, turns, counter, wrapped, others, own⟩ :=
        s.pick_full_fields hw (s.pick_full hr hw hu chosen hl hstop hfull)
      rw [raiseLost_returned] at own
      exact ⟨state, full, alert, store, writer, (congrArg Turns.unit turns).trans hu, counter, wrapped, others, own⟩
    · have begins := s.pick_begins hr hw hu chosen hl hroom
      have capture : s.pick.capture = ((s.capture.picked q rest).begun s.now q r).unitWritten := by rw [begins]
      have unit : s.pick.turns.unit = true := by rw [begins]
      have alert : s.pick.alert = s.alert := by rw [begins]
      obtain ⟨state, counter, full, -, store, wrapped, writer, own, others⟩ :=
        s.capture.picked_begun s.now hr hl hplaces
      generalize (s.capture.picked q rest).begun s.now q r = c at capture state counter full store wrapped writer own others
      obtain ⟨wrapped', full', -, counter'⟩ := c.unitWritten_kept
      have refilled : c.queue q = after := own.trans (Staging.refilled_eq _ _ _ _)
      obtain ⟨k, hk, dropped, room, fewest⟩ :=
        discardOldest_drop r.length (h6.trans (by decide)) s.capture.store
      rw [dropped] at store wrapped
      rw [state, counter] at counter'
      have discards : decide ((s.capture.store.drop k).length < s.capture.store.length) = decide (0 < k) := by
        rw [decide_eq_decide, List.length_drop]
        omega
      refine ⟨unit, (congrArg Capture.full capture).trans (full'.trans full), alert,
        (congrArg Capture.postCounter capture).trans counter', fun hnot => ?_, fun hlast => ?_, k, hk, room, fewest, ?_,
        fun h1 => ?_, fun h1 => ?_⟩
      · obtain ⟨state', queues⟩ := c.unitWritten_going (by rwa [state, counter])
        exact ⟨(congrArg (·.queue q) capture).trans ((queues q).trans refilled),
          fun x hx => (congrArg (·.queue x) capture).trans ((queues x).trans (others x hx)),
          (congrArg Capture.state capture).trans (state'.trans state)⟩
      · obtain ⟨state', queues⟩ := c.unitWritten_stopped (by rwa [state, counter])
        exact ⟨(congrArg (·.queue q) capture).trans ((queues q).trans (congrArg Staging.discard refilled)),
          fun x hx => (congrArg (·.queue x) capture).trans ((queues x).trans (congrArg Staging.discard (others x hx))),
          (congrArg Capture.state capture).trans state'⟩
      · rw [discards] at wrapped
        exact (congrArg Capture.wrapped capture).trans (wrapped'.trans wrapped)
      · obtain ⟨writer', store'⟩ := Capture.unitWritten_last writer (by rw [h1])
        rw [store] at store'
        exact ⟨(congrArg Capture.store capture).trans store', (congrArg Capture.writer capture).trans writer'⟩
      · obtain ⟨writer', store'⟩ := Capture.unitWritten_more writer h1
        rw [store] at store'
        exact ⟨(congrArg Capture.store capture).trans store', (congrArg Capture.writer capture).trans writer'⟩

end Sys2Proof.Machine
end

section
/-! SUPPORT. The capture actions of a transition, in their order: start, trigger, stop (R135, R141 to R145, R152). -/
namespace Sys2Proof.Machine

/-! ### The start -/

/-- What an entry into RUN leaves of trace capture besides the state, the note and the staging queues. -/
structure Capture.Keeps (c d : Capture) : Prop where
  counter : d.postCounter = c.postCounter
  store : d.store = c.store
  writer : d.writer = c.writer
  settings : d.settings = c.settings

theorem Capture.Keeps.refl (c : Capture) : c.Keeps c := ⟨rfl, rfl, rfl, rfl⟩

theorem Capture.Keeps.trans {c d e : Capture} (h : c.Keeps d) (k : d.Keeps e) : c.Keeps e :=
  ⟨k.counter.trans h.counter, k.store.trans h.store, k.writer.trans h.writer, k.settings.trans h.settings⟩

theorem Capture.setQueue_keeps (c : Capture) (q : QueueId) (x : Staging) : c.Keeps (c.setQueue q x) := by
  cases q <;> exact ⟨rfl, rfl, rfl, rfl⟩

theorem State.enterGap_kept (s : State) (q : QueueId) :
    s.capture.Keeps (s.enterGap q).capture ∧ (s.enterGap q).capture.state = s.capture.state ∧
      (s.enterGap q).capture.note = s.capture.note ∧ (s.enterGap q).alert = s.alert := by
  rw [s.enterGap_eq]
  refine ⟨?_, ?_, ?_, rfl⟩ <;> unfold State.setCapture Capture.withGap <;> split
  · exact s.capture.setQueue_keeps _ _
  · exact .refl _
  · exact Capture.setQueue_state _ _ _
  · rfl
  · exact Capture.setQueue_note _ _ _
  · rfl

theorem State.serveNote_kept (s : State) :
    s.capture.Keeps s.serveNote.capture ∧ s.serveNote.capture.state = s.capture.state ∧
      s.serveNote.capture.note = none ∧
      ∀ i, i ≠ 8 → s.serveNote.alert.latches.getLsbD i = s.alert.latches.getLsbD i := by
  unfold State.serveNote
  split
  · next h => exact ⟨.refl _, rfl, h, fun _ _ => rfl⟩
  · next stamp h =>
    have event := s.offerEvent_capture (.channel .softReset stamp)
    refine ⟨⟨?_, ?_, ?_, ?_⟩, ?_, rfl, fun i hi => s.offerEvents_latch [.channel .softReset stamp] i hi⟩
    · exact (congrArg Capture.postCounter event :)
    · exact (congrArg Capture.store event :)
    · exact (congrArg Capture.writer event :)
    · exact (congrArg Capture.settings event :)
    · exact (congrArg Capture.state event :)

/-- Capture started from OFF or STOPPED. -/
theorem State.startCapture_kept (s : State) (h : s.capture.running = false) :
    s.capture.Keeps s.startCapture.capture ∧ s.startCapture.capture.state = .run ∧
      s.startCapture.capture.note = none ∧
      ∀ i, i ≠ 8 → s.startCapture.alert.latches.getLsbD i = s.alert.latches.getLsbD i := by
  have started : s.startCapture =
      ((((s.setCapture { s.capture with state := .run }).serveNote).enterGap .event).enterGap
        .access).enterGap .marker := if_neg (by rw [h]; exact Bool.false_ne_true)
  obtain ⟨keeps, state, note, latch⟩ := (s.setCapture { s.capture with state := .run }).serveNote_kept
  rw [started]
  generalize (s.setCapture { s.capture with state := .run }).serveNote = s1 at keeps state note latch
  obtain ⟨keeps1, state1, note1, alert1⟩ := s1.enterGap_kept .event
  generalize s1.enterGap .event = s2 at keeps1 state1 note1 alert1
  obtain ⟨keeps2, state2, note2, alert2⟩ := s2.enterGap_kept .access
  generalize s2.enterGap .access = s3 at keeps2 state2 note2 alert2
  obtain ⟨keeps3, state3, note3, alert3⟩ := s3.enterGap_kept .marker
  have first : s.capture.Keeps s1.capture := ⟨keeps.counter, keeps.store, keeps.writer, keeps.settings⟩
  refine ⟨((first.trans keeps1).trans keeps2).trans keeps3, ?_, ?_, fun i hi => ?_⟩
  · rw [state3, state2, state1, state]
    rfl
  · rw [note3, note2, note1, note]
  · rw [alert3, alert2, alert1, latch i hi]
    rfl

/-! ### Trigger and stop -/

/-- The effect on trace capture of a trigger, if there is one (R143). -/
def Capture.triggered (c : Capture) (trigger : Bool) : Capture :=
  if trigger = true ∧ c.state = .run then
    if c.settings.postFill = 0 then c.enterStopped
    else { c with state := .post, postCounter := c.settings.postFill.toNat }
  else c

theorem State.triggerCapture_eq (s : State) : s.triggerCapture = s.setCapture (s.capture.triggered true) := by
  unfold State.triggerCapture Capture.triggered
  by_cases h : s.capture.state = .run
  · have fires : true = true ∧ s.capture.state = .run := ⟨rfl, h⟩
    rw [if_pos h, if_pos fires]
    by_cases h0 : s.capture.settings.postFill = 0
    · rw [if_pos h0, if_pos h0]
      rfl
    · rw [if_neg h0, if_neg h0]
  · rw [if_neg h, if_neg fun k => h k.2]
    rfl

/-- The effect on trace capture of a stop, if there is one (R142). -/
def Capture.stopped (c : Capture) (stop : Bool) : Capture :=
  if stop = true ∧ (c.state = .run ∨ c.state = .post) then c.enterStopped else c

theorem State.stopCapture_eq (s : State) : s.stopCapture = s.setCapture (s.capture.stopped true) := by
  unfold State.stopCapture Capture.stopped
  by_cases h : s.capture.running = true
  · rw [if_pos h, if_pos ⟨rfl, s.capture.running_iff.mp h⟩]
    rfl
  · rw [if_neg h, if_neg fun k => h (s.capture.running_iff.mpr k.2)]
    rfl

/-- The state and the counter after a trigger, and the queues: emptied when it stops capture. -/
theorem Capture.triggered_fields (c : Capture) (b : Bool) :
    (c.triggered b).state =
        (if b = true ∧ c.state = .run then (if c.settings.postFill = 0 then .stopped else .post) else c.state) ∧
      (c.triggered b).postCounter =
        (if b = true ∧ c.state = .run ∧ c.settings.postFill ≠ 0 then c.settings.postFill.toNat
         else c.postCounter) ∧
      (c.triggered b).note = c.note ∧ (c.triggered b).store = c.store ∧ (c.triggered b).writer = c.writer ∧
      (c.triggered b).settings = c.settings ∧
      ∀ q, (c.triggered b).queue q =
        if b = true ∧ c.state = .run ∧ c.settings.postFill = 0 then (c.queue q).discard else c.queue q := by
  unfold Capture.triggered
  by_cases hr : b = true ∧ c.state = .run
  · obtain ⟨hb, hr⟩ := hr
    by_cases h0 : c.settings.postFill = 0
    · simp only [hb, hr, h0, if_true, and_self, ne_eq, not_true_eq_false, and_false, if_false]
      exact ⟨rfl, rfl, rfl, rfl, rfl, rfl, c.queue_enterStopped⟩
    · simp only [hb, hr, h0, if_true, if_false, ne_eq, not_false_eq_true, and_self, and_false]
      exact ⟨trivial, trivial, trivial, trivial, trivial, trivial, fun q => by cases q <;> rfl⟩
  · have hr' (x : Prop) : ¬ (b = true ∧ c.state = .run ∧ x) := fun h => hr ⟨h.1, h.2.1⟩
    simp only [if_neg hr, if_neg (hr' _)]
    exact ⟨trivial, trivial, trivial, trivial, trivial, trivial, fun _ => trivial⟩

theorem Capture.stopped_fields (c : Capture) (b : Bool) :
    (c.stopped b).state = (if b = true ∧ (c.state = .run ∨ c.state = .post) then .stopped else c.state) ∧
      (c.stopped b).postCounter = c.postCounter ∧ (c.stopped b).note = c.note ∧ (c.stopped b).store = c.store ∧
      (c.stopped b).writer = c.writer ∧ (c.stopped b).settings = c.settings ∧
      ∀ q, (c.stopped b).queue q =
        if b = true ∧ (c.state = .run ∨ c.state = .post) then (c.queue q).discard else c.queue q := by
  unfold Capture.stopped
  by_cases hr : b = true ∧ (c.state = .run ∨ c.state = .post)
  · simp only [if_pos hr]
    exact ⟨rfl, rfl, rfl, rfl, rfl, rfl, c.queue_enterStopped⟩
  · simp only [if_neg hr]
    exact ⟨trivial, trivial, trivial, trivial, trivial, trivial, fun _ => trivial⟩

/-- The state that trigger and stop leave, from the state they find. -/
def stateActed (a : StageActions) (postFill : BitVec 12) (st : CaptureState) : CaptureState :=
  let s2 := if a.trigger ∧ st = .run then (if postFill = 0 then .stopped else .post) else st
  if a.stopCapture ∧ (s2 = .run ∨ s2 = .post) then .stopped else s2

/-- The queues are emptied at most once, and exactly when running capture is stopped. -/
theorem discarded_once (a : StageActions) (postFill : BitVec 12) (st : CaptureState) (x : Staging) :
    let s2 : CaptureState := if a.trigger ∧ st = .run then (if postFill = 0 then .stopped else .post) else st
    let y := if a.trigger = true ∧ st = .run ∧ postFill = 0 then x.discard else x
    (if a.stopCapture = true ∧ (s2 = .run ∨ s2 = .post) then y.discard else y) =
      if stateActed a postFill st = .stopped ∧ (st = .run ∨ st = .post) then x.discard else x := by
  unfold stateActed
  cases ht : a.trigger <;> cases hs : a.stopCapture <;> cases st <;> by_cases h0 : postFill = 0 <;> simp_all

/-- Trigger and stop together: what they leave, and the queues emptied when they stop running capture. -/
theorem Capture.acted_fields (c : Capture) (a : StageActions) :
    ((c.triggered a.trigger).stopped a.stopCapture).state = stateActed a c.settings.postFill c.state ∧
      ((c.triggered a.trigger).stopped a.stopCapture).postCounter =
        (if a.trigger = true ∧ c.state = .run ∧ c.settings.postFill ≠ 0 then c.settings.postFill.toNat
         else c.postCounter) ∧
      ((c.triggered a.trigger).stopped a.stopCapture).note = c.note ∧
      ((c.triggered a.trigger).stopped a.stopCapture).store = c.store ∧
      ((c.triggered a.trigger).stopped a.stopCapture).writer = c.writer ∧
      ((c.triggered a.trigger).stopped a.stopCapture).settings = c.settings ∧
      ∀ q, ((c.triggered a.trigger).stopped a.stopCapture).queue q =
        if stateActed a c.settings.postFill c.state = .stopped ∧ (c.state = .run ∨ c.state = .post) then
          (c.queue q).discard
        else c.queue q := by
  obtain ⟨state1, counter1, note1, store1, writer1, settings1, queue1⟩ := c.triggered_fields a.trigger
  obtain ⟨state2, counter2, note2, store2, writer2, settings2, queue2⟩ :=
    (c.triggered a.trigger).stopped_fields a.stopCapture
  rw [state1] at state2
  simp only [state1] at queue2
  refine ⟨state2, counter2.trans counter1, note2.trans note1, store2.trans store1, writer2.trans writer1,
    settings2.trans settings1, fun q => ?_⟩
  rw [queue2, queue1]
  exact discarded_once a c.settings.postFill c.state (c.queue q)

/-! ### The actions of a transition (R135) -/

/-- A transition that enters RUN. -/
abbrev Capture.Enters (c : Capture) (a : StageActions) : Prop := a.startCapture = true ∧ c.running = false

theorem captureStateAfter_eq (a : StageActions) (c : Capture) :
    captureStateAfter a c.settings.postFill c.state =
      stateActed a c.settings.postFill (if c.Enters a then .run else c.state) := by
  have enters : c.Enters a ↔ a.startCapture = true ∧ (c.state = .off ∨ c.state = .stopped) := by
    unfold Capture.Enters Capture.running
    cases c.state <;> simp
  have start : (if c.Enters a then .run else c.state) =
      if a.startCapture = true ∧ (c.state = .off ∨ c.state = .stopped) then .run else c.state :=
    if_congr enters rfl rfl
  unfold captureStateAfter stateActed
  rw [start]

end Sys2Proof.Machine
end

section
/-! SUPPORT. The actions of a transition as the statements say them (R135 to R137). -/
namespace Sys2Proof.Machine

/-- The state after the start of a transition, if it has one. -/
theorem State.started_fields (s : State) (a : StageActions) {t : State}
    (ht : t = if a.startCapture then s.startCapture else s) :
    s.capture.Keeps t.capture ∧
    t.capture.state = (if s.capture.Enters a then .run else s.capture.state) ∧
    t.capture.note = (if s.capture.Enters a then none else s.capture.note) ∧
    (∀ i, i ≠ 8 → t.alert.latches.getLsbD i = s.alert.latches.getLsbD i) ∧
    (s.capture.Inv → ∀ q, t.capture.queue q = if s.capture.Enters a then s.queueAtStart q else s.capture.queue q) ∧
    t = { s with capture := t.capture, alert := t.alert } := by
  by_cases he : s.capture.Enters a
  · obtain ⟨ha, hr⟩ := he
    rw [ha] at ht
    subst ht
    obtain ⟨keeps, state, note, latch⟩ := s.startCapture_kept hr
    simp only [if_pos (show s.capture.Enters a from ⟨ha, hr⟩), if_true]
    refine ⟨keeps, state, note, latch, fun hi q => ?_, s.startCapture_step.1⟩
    obtain ⟨hbounds, -⟩ := s.capture.inv_iff.mp hi
    rw [s.startCapture_eq hr fun q => (hbounds.queues q).empty hr]
    cases q <;> rfl
  · have same : t = s := by
      rw [ht]
      cases ha : a.startCapture with
      | false => rfl
      | true =>
        have running : s.capture.running = true := by
          cases hr : s.capture.running with
          | true => rfl
          | false => exact absurd ⟨ha, hr⟩ he
        exact s.startCapture_running running
    simp only [if_neg he]
    rw [same]
    exact ⟨.refl _, rfl, rfl, fun _ _ => rfl, fun _ _ => rfl, rfl⟩

theorem Capture.triggered_false (c : Capture) : c.triggered false = c := if_neg fun h => Bool.false_ne_true h.1

theorem Capture.stopped_false (c : Capture) : c.stopped false = c := if_neg fun h => Bool.false_ne_true h.1

/-- Trigger and stop of a transition reach trace capture alone. -/
theorem State.acted_eq (s : State) (a : StageActions) :
    (let s2 := if a.trigger then s.triggerCapture else s
     if a.stopCapture then s2.stopCapture else s2) =
      s.setCapture ((s.capture.triggered a.trigger).stopped a.stopCapture) := by
  have trigger : (if a.trigger then s.triggerCapture else s) = s.setCapture (s.capture.triggered a.trigger) := by
    cases a.trigger with
    | false => rw [Capture.triggered_false]; rfl
    | true => exact s.triggerCapture_eq
  simp only [trigger]
  cases a.stopCapture with
  | false => rw [Capture.stopped_false]; rfl
  | true => exact State.stopCapture_eq _

/-- A staging queue after the actions: filled by an entry into RUN, emptied by an entry into STOPPED. -/
def State.stagedAfter (s : State) (a : StageActions) (q : QueueId) : Staging :=
  let x := if s.capture.Enters a then s.queueAtStart q else s.capture.queue q
  if captureStateAfter a s.capture.settings.postFill s.capture.state = .stopped ∧
      (s.capture.running = true ∨ s.capture.Enters a) then x.discard
  else x

/-- The capture actions as the statements say them: `t` is the state they leave. -/
structure State.CaptureActed (s t : State) (a : StageActions) : Prop where
  state : t.capture.state = captureStateAfter a s.capture.settings.postFill s.capture.state
  counter : t.capture.postCounter =
    if a.trigger = true ∧ (s.capture.state = .run ∨ s.capture.Enters a) ∧ s.capture.settings.postFill ≠ 0 then
      s.capture.settings.postFill.toNat
    else s.capture.postCounter
  note : t.capture.note = if s.capture.Enters a then none else s.capture.note
  store : t.capture.store = s.capture.store
  writer : t.capture.writer = s.capture.writer
  settings : t.capture.settings = s.capture.settings
  staged : s.capture.Inv → ∀ q, t.capture.queue q = s.stagedAfter a q
  latch : ∀ i, i ≠ 8 → t.alert.latches.getLsbD i = s.alert.latches.getLsbD i
  frame : t = { s with capture := t.capture, alert := t.alert }

theorem running_after_start (c : Capture) (a : StageActions) :
    ((if c.Enters a then .run else c.state) = .run ∨ (if c.Enters a then .run else c.state) = .post) ↔
      c.running = true ∨ c.Enters a := by
  by_cases he : c.Enters a
  · rw [if_pos he]
    exact iff_of_true (.inl rfl) (.inr he)
  · rw [if_neg he, c.running_iff]
    simp [he]

theorem run_after_start (c : Capture) (a : StageActions) :
    (if c.Enters a then .run else c.state) = .run ↔ c.state = .run ∨ c.Enters a := by
  by_cases he : c.Enters a
  · exact iff_of_true (if_pos he) (.inr he)
  · rw [if_neg he]
    exact (or_iff_left he).symm

theorem State.captureActed (s : State) (a : StageActions) {t u : State}
    (ht : t = if a.startCapture then s.startCapture else s)
    (hu : u = t.setCapture ((t.capture.triggered a.trigger).stopped a.stopCapture)) : s.CaptureActed u a := by
  obtain ⟨keeps, state, note, latch, queues, frame⟩ := s.started_fields a ht
  obtain ⟨state', counter', note', store', writer', settings', queue'⟩ := t.capture.acted_fields a
  have capture : u.capture = (t.capture.triggered a.trigger).stopped a.stopCapture := by rw [hu]; rfl
  have alert : u.alert = t.alert := by rw [hu]; rfl
  rw [state, keeps.settings, ← captureStateAfter_eq] at state'
  rw [state, keeps.settings] at counter'
  simp only [state, keeps.settings, ← captureStateAfter_eq] at queue'
  refine ⟨?_, ?_, ?_, ?_, ?_, ?_, fun hi q => ?_, ?_, ?_⟩
  · rw [capture, state']
  · rw [capture, counter', keeps.counter]
    exact if_congr (and_congr_right' (and_congr_left' (run_after_start _ a))) rfl rfl
  · rw [capture, note', note]
  · rw [capture, store', keeps.store]
  · rw [capture, writer', keeps.writer]
  · rw [capture, settings', keeps.settings]
  · rw [capture, queue', queues hi]
    exact if_congr (and_congr_right' (running_after_start _ a)) rfl rfl
  · rw [alert]
    exact latch
  · rw [hu, frame]
    rfl

end Sys2Proof.Machine
end

section
/-! SUPPORT. A transition of the sequencer, from its actions to its STAGE record; the take and the timeout (R130 to R137). -/
namespace Sys2Proof.Machine

/-! ### What a transition leaves -/

/-- `RecordsQueued` reads of the state before whether capture runs, event staging and the class enables. -/
theorem State.RecordsQueued.of_event {s s' t : State} {rs : List (List Record)} (h : s'.RecordsQueued t rs)
    (hr : s'.capture.running = s.capture.running) (he : s'.capture.event = s.capture.event)
    (hc : s'.capture.settings = s.capture.settings) : s.RecordsQueued t rs := by
  unfold State.RecordsQueued at h ⊢
  rw [← hr, ← he, ← hc]
  exact h

/-- The state after the capture actions of a transition. -/
def State.afterCapture (s : State) (a : StageActions) : State :=
  let s1 := if a.startCapture then s.startCapture else s
  let s2 := if a.trigger then s1.triggerCapture else s1
  if a.stopCapture then s2.stopCapture else s2

theorem State.afterCapture_acted (s : State) (a : StageActions) : s.CaptureActed (s.afterCapture a) a :=
  s.captureActed a rfl (State.acted_eq _ a)

theorem State.runActions_eq (s : State) (a : StageActions) (pin : PinNo) :
    s.runActions a pin =
      (if a.cue then (s.afterCapture a).requestPulse .seqCue pin else s.afterCapture a).setLatchIf .seqAlert
        a.alert := rfl

/-- What the actions leave: the capture actions, the pulse, and the SEQ_ALERT latch. -/
theorem State.runActions_fields (s : State) (a : StageActions) (pin : PinNo) :
    (s.runActions a pin).capture = (s.afterCapture a).capture ∧
    (∀ p, (s.runActions a pin).cue p =
      if p = pin ∧ a.cue = true ∧ (s.cue p).function = .seqCue then (s.cue p).pulsed else s.cue p) ∧
    (∀ i, i ≠ 8 → (s.runActions a pin).alert.latches.getLsbD i =
      (s.alert.latches.getLsbD i || a.alert && decide (i = 6))) ∧
    (s.runActions a pin).seq = s.seq ∧ (s.runActions a pin).now = s.now := by
  have acted := s.afterCapture_acted a
  have frame := acted.frame
  have latch := acted.latch
  have cue (p : PinNo) : (s.afterCapture a).cue p = s.cue p := by rw [frame]; rfl
  have seq : (s.afterCapture a).seq = s.seq := by rw [frame]
  have now : (s.afterCapture a).now = s.now := by rw [frame]
  rw [s.runActions_eq]
  generalize s.afterCapture a = u at latch cue seq now
  have pulse : ∃ cues, (if a.cue then u.requestPulse .seqCue pin else u) = { u with cues := cues } ∧
      ∀ p, (if a.cue then u.requestPulse .seqCue pin else u).cue p =
        if p = pin ∧ a.cue = true ∧ (u.cue p).function = .seqCue then (u.cue p).pulsed else u.cue p := by
    cases a.cue with
    | false => exact ⟨u.cues, rfl, fun p => (if_neg fun h => Bool.false_ne_true h.2.1).symm⟩
    | true =>
      refine ⟨_, u.requestPulse_frame .seqCue pin, fun p => (u.requestPulse_cue .seqCue pin p).trans ?_⟩
      exact if_congr (by simp) rfl rfl
  obtain ⟨cues, pulsed, pins⟩ := pulse
  rw [pulsed] at pins ⊢
  refine ⟨State.setLatchIf_capture _ _ _, fun p => ?_, fun i hi => ?_, ?_, ?_⟩
  · have kept : (State.setLatchIf { u with cues := cues } .seqAlert a.alert).cue p = ({ u with cues := cues } : State).cue p := by
      unfold State.cue
      rw [State.setLatchIf_cues]
    rw [kept, pins, cue]
  · rw [State.setLatchIf_latch, Cause.set_getLsbD]
    change (u.alert.latches.getLsbD i || _) = _
    rw [latch i hi]
    rfl
  · rw [State.setLatchIf_seq]
    exact seq
  · rw [State.setLatchIf_now]
    exact now

/-- The state in which a transition offers its STAGE record, in the words of the statements. -/
theorem State.actionsRun_of {s v : State} {a : StageActions} {pin : PinNo} {r : Record}
    (capture : v.capture = (s.afterCapture a).capture)
    (pins : ∀ p, v.cue p =
      if p = pin ∧ a.cue = true ∧ (s.cue p).function = .seqCue then (s.cue p).pulsed else s.cue p)
    (alert : v.alert.latches.getLsbD 6 = (s.alert.latches.getLsbD 6 || a.alert))
    (trigger : v.alert.latches.getLsbD 5 = (s.alert.latches.getLsbD 5 || a.trigger)) :
    s.ActionsRun (v.offerEvent r) a pin r := by
  have acted := s.afterCapture_acted a
  have event := v.offerEvent_capture r
  have latch (i : Nat) (hi : i ≠ 8) := v.offerEvents_latch [r] i hi
  have frame := (v.offerEvent_step r).1
  rw [capture] at event
  refine ⟨?_, ?_, ?_, ?_, ?_, fun hi => ⟨?_, ?_, ?_⟩, fun p => ?_, (latch 6 (by decide)).trans alert,
    (latch 5 (by decide)).trans trigger⟩
  · rw [event]; exact acted.state
  · rw [event]; exact acted.counter
  · rw [event]; exact acted.note
  · rw [event]; exact acted.store
  · rw [event]; exact acted.writer
  · rw [event]; exact acted.staged hi .access
  · rw [event]; exact acted.staged hi .marker
  · have running : v.capture.running = ({ s.capture with
        state := captureStateAfter a s.capture.settings.postFill s.capture.state
        event := s.stagedAfter a .event } : Capture).running := by
      unfold Capture.running
      rw [capture, acted.state]
    exact (v.offerEvent_recordsQueued r).of_event running
      ((congrArg Capture.event capture).trans (acted.staged hi .event))
      ((congrArg Capture.settings capture).trans acted.settings)
  · have kept : (v.offerEvent r).cue p = v.cue p := by rw [frame]; rfl
    rw [kept, pins p]
    rfl

/-- A transition to the next stage. -/
theorem State.transition_next (s : State) {a : StageActions} (pin : PinNo) (next : StageNo) (cause : StageCause)
    (ha : a.trigger = false) :
    s.ActionsRun (s.transition a pin next cause) a pin (.stage s.seq.stage next cause s.now) ∧
    (s.transition a pin next cause).turns.take = true ∧
    (s.transition a pin next cause).seq =
      { state := .armed, stage := next, count := 0
        expiry := if (s.stageOf next).t = 0 then none else some (s.now + (s.stageOf next).t.setWidth 48)
        entry := (s.stageOf next).hasAlways, queue := s.seq.queue, stages := s.seq.stages } := by
  obtain ⟨capture, pins, latch, seq, now⟩ := s.runActions_fields a pin
  have moved : s.transition a pin next cause =
      ((s.runActions a pin).enterStage next).offerEvent (.stage s.seq.stage next cause s.now) :=
    if_neg (by rw [ha]; exact Bool.false_ne_true)
  rw [moved]
  generalize s.runActions a pin = u at capture pins latch seq now
  have frame := ((u.enterStage next).offerEvent_step (.stage s.seq.stage next cause s.now)).1
  have stage : u.stageOf next = s.stageOf next := by
    unfold State.stageOf
    rw [seq]
  refine ⟨State.actionsRun_of capture pins ?_ ?_, ?_, ?_⟩
  · exact (latch 6 (by decide)).trans (by simp)
  · exact (latch 5 (by decide)).trans (by simp [ha])
  · rw [frame]
    rfl
  · have entered : (u.enterStage next).seq =
        { s.seq with
          state := .armed, stage := next, count := 0
          expiry := if (s.stageOf next).t = 0 then none else some (slotPlus s.now (s.stageOf next).t.toNat)
          entry := (s.stageOf next).hasAlways } := by
      unfold State.enterStage
      rw [seq, stage, now]
    rw [frame]
    refine entered.trans ?_
    rw [slotPlus_toNat]

/-- A transition into TRIGGERED. -/
theorem State.transition_triggered (s : State) {a : StageActions} (pin : PinNo) (next : StageNo) (cause : StageCause)
    (ha : a.trigger = true) :
    s.ActionsRun (s.transition a pin next cause) a pin (.stage s.seq.stage s.seq.stage .trigger s.now) ∧
    (s.transition a pin next cause).seq =
      { state := .triggered, stage := s.seq.stage, count := 0, expiry := none, entry := false, queue := []
        stages := s.seq.stages } := by
  obtain ⟨capture, pins, latch, seq, now⟩ := s.runActions_fields a pin
  have moved : s.transition a pin next cause =
      (s.runActions a pin).enterTriggered.offerEvent (.stage s.seq.stage s.seq.stage .trigger s.now) := if_pos ha
  rw [moved]
  generalize s.runActions a pin = u at capture pins latch seq now
  have frame := (u.enterTriggered.offerEvent_step (.stage s.seq.stage s.seq.stage .trigger s.now)).1
  have latches (i : Nat) : u.enterTriggered.alert.latches.getLsbD i = (u.alert.latches.getLsbD i || decide (i = 5)) := by
    change (u.alert.latches ||| Cause.trigger.set).getLsbD i = _
    rw [BitVec.getLsbD_or, Cause.set_getLsbD]
    rfl
  refine ⟨State.actionsRun_of (v := u.enterTriggered) capture pins ?_ ?_, ?_⟩
  · rw [latches, latch 6 (by decide)]
    simp
  · rw [latches, latch 5 (by decide)]
    simp [ha]
  · rw [frame]
    change ({ u.seq with state := .triggered, count := 0, expiry := none, entry := false, queue := [] } : Sequencer) = _
    rw [seq]

end Sys2Proof.Machine
end

section
/-! SUPPORT. The take of an occurrence and the timeout of a stage (R130 to R133). -/
namespace Sys2Proof.Machine

/-- The state with the occurrence taken used up. -/
def State.usedUp (s : State) (rest : List Occurrence) : State :=
  s.setSeq { s.seq with entry := false, queue := rest }

/-- The take uses up the entry occurrence, else the oldest queued one, and judges it (R130, R131). -/
theorem State.take_eq (s : State) {x : Taken} {rest : List Occurrence}
    (h : s.seq.entry = true ∧ x = .entry ∧ rest = s.seq.queue ∨
      s.seq.entry = false ∧ ∃ o, s.seq.queue = o :: rest ∧ x = .queued o) : s.take = (s.usedUp rest).judge x := by
  obtain ⟨he, rfl, rfl⟩ | ⟨he, o, hq, rfl⟩ := h
  · exact if_pos he
  · have used : s.usedUp rest = s.setSeq { s.seq with queue := rest } := by
      unfold State.usedUp
      rw [← he]
    unfold State.take
    rw [if_neg (by rw [he]; exact Bool.false_ne_true), hq, used]

theorem State.takeTurn_eq (s : State) (ha : s.seq.state = .armed) (ht : s.turns.take = false) :
    s.takeTurn = { s.take with turns := { s.take.turns with take := true } } := if_pos ⟨ha, ht⟩

/-- The condition of the stage in force, as the statement says it. -/
theorem Stage.satisfied_eq (st : Stage) (level : PinNo → Bool) (x : Taken) :
    st.satisfied level x =
      match st.join with
      | .none => st.termA.meets x
      | .or => st.termA.meets x || st.termB.meets x
      | .andLevel => st.termA.meets x &&
        (match st.termB with
         | .level p high => level p == high
         | _ => false) := by
  unfold Stage.satisfied
  cases st.join with
  | none => rfl
  | or => rfl
  | andLevel => cases st.termB <;> rfl

theorem State.judge_unmet (s : State) (x : Taken)
    (h : (s.stageOf s.seq.stage).satisfied s.pinLevel x = false) : s.judge x = s :=
  if_neg (by rw [h]; exact Bool.false_ne_true)

theorem State.judge_counted (s : State) (x : Taken)
    (h : (s.stageOf s.seq.stage).satisfied s.pinLevel x = true)
    (hn : s.seq.count + 1 < (s.stageOf s.seq.stage).n.toNat) :
    s.judge x = s.setSeq { s.seq with count := s.seq.count + 1 } :=
  (if_pos h).trans (if_neg (Nat.not_le.mpr hn))

theorem State.judge_reached (s : State) (x : Taken)
    (h : (s.stageOf s.seq.stage).satisfied s.pinLevel x = true)
    (hn : (s.stageOf s.seq.stage).n.toNat ≤ s.seq.count + 1) :
    s.judge x = (s.setSeq { s.seq with count := s.seq.count + 1 }).transition (s.stageOf s.seq.stage).condActions
      (s.stageOf s.seq.stage).condPin (s.stageOf s.seq.stage).nextCondition .condition :=
  (if_pos h).trans (if_pos hn)

/-- `ActionsRun` does not read of the sequencer before, nor of the turns after. -/
theorem State.ActionsRun.congr {s t : State} {q : Sequencer} {turns : Turns} {a : StageActions} {pin : PinNo}
    {r : Record} (h : (s.setSeq q).ActionsRun t a pin r) : s.ActionsRun { t with turns := turns } a pin r := h

/-- Settles O40: the take by its three outcomes, the last one a transition. -/
theorem occurrenceIsTaken : Obligations.OccurrenceIsTaken := by
  unfold Obligations.OccurrenceIsTaken
  intro s x rest hp ha ht hx st met
  have turn : exec .occurrenceTake s = _ :=
    (exec_up (c := .occurrenceTake) (f := State.takeTurn) rfl hp).trans (congrArg _ (s.takeTurn_eq ha ht))
  have take := s.take_eq hx
  have satisfied : ((s.usedUp rest).stageOf (s.usedUp rest).seq.stage).satisfied (s.usedUp rest).pinLevel x = met :=
    Stage.satisfied_eq _ _ _
  refine ⟨_, turn, rfl, fun hm => ?_, fun hm hn => ?_, fun hm hn => ⟨fun hc => ?_, fun hc => ?_⟩⟩
  · rw [take, State.judge_unmet _ _ (satisfied.trans hm)]
    rfl
  · rw [take, State.judge_counted _ _ (satisfied.trans hm) hn]
    rfl
  · rw [take, State.judge_reached _ _ (satisfied.trans hm) hn]
    obtain ⟨actions, -, seq⟩ := State.transition_next
      ((s.usedUp rest).setSeq { (s.usedUp rest).seq with count := (s.usedUp rest).seq.count + 1 }) st.condPin
      st.nextCondition .condition hc
    exact ⟨State.ActionsRun.congr (s := s) actions, seq⟩
  · rw [take, State.judge_reached _ _ (satisfied.trans hm) hn]
    obtain ⟨actions, seq⟩ := State.transition_triggered
      ((s.usedUp rest).setSeq { (s.usedUp rest).seq with count := (s.usedUp rest).seq.count + 1 }) st.condPin
      st.nextCondition .condition hc
    exact ⟨State.ActionsRun.congr (s := s) actions, seq⟩

/-- Settles O41: the timeout that is due is a transition. -/
theorem stageTimesOut : Obligations.StageTimesOut := by
  unfold Obligations.StageTimesOut
  intro s hp ha he st
  have due : s.timeout = s.transition st.timeoutActions st.timeoutPin st.nextTimeout .timeout := if_pos ⟨ha, he⟩
  have turn : exec .stageTimeout s = _ :=
    (exec_up (c := .stageTimeout) (f := State.timeout) rfl hp).trans (congrArg _ due)
  exact ⟨_, turn, fun hc => s.transition_next st.timeoutPin st.nextTimeout .timeout hc,
    fun hc => s.transition_triggered st.timeoutPin st.nextTimeout .timeout hc⟩

end Sys2Proof.Machine
end

section
/-! SUPPORT. Events that are not due (log entries 4, 5, 7, 8, 12 and 21). -/
namespace Sys2Proof.Machine

/-- An event whose turn leaves the state as it is changes nothing. -/
theorem exec_unchanged {c : Instr} {s : State} {f : State → State} (h : exec c s = s.whileUp f)
    (hp : s.porst = false) (hf : f s = s) : exec c s = .next s := by
  rw [exec_up h hp, hf]

/-! ### Places of the tracker list -/

/-- A place without an entry names a number that no entry has. -/
theorem State.entry?_empty {s : State} (hs : s.TrackerInv) {place : BitVec 3}
    (h : s.tracker[place.toNat]? = none) : s.entry? (s.numberAt place) = none := by
  obtain ⟨-, -, hnext, -⟩ := hs
  have number : s.numberAt place = s.nextNumber := by simp [State.numberAt, h]
  rw [number]
  refine List.find?_eq_none.mpr fun e he => ?_
  have below := hnext e he
  simp only [beq_iff_eq]
  omega

theorem State.effectStep_notDue {s : State} {n : Nat} (h : ∀ e, s.entry? n = some e → s.effectDue e = false) :
    s.effectStep n = s := by
  unfold State.effectStep
  split
  · rfl
  · next e he => exact if_neg (by rw [h e he]; exact Bool.false_ne_true)

theorem State.dataStep_notDue {s : State} {n : Nat} (h : ∀ e, s.entry? n = some e → s.dataDue e = false) :
    s.dataStep n = s := by
  unfold State.dataStep
  split
  · rfl
  · next e he => exact if_neg (by rw [h e he]; exact Bool.false_ne_true)

theorem State.dataStep_awaiting {s : State} {n : Nat} {e : Entry} (hs : s.streamer = some e)
    (ha : s.awaitsBeats e = true) : s.dataStep n = s := by
  unfold State.dataStep
  split
  · rfl
  · split
    · rw [hs]
      exact if_pos ha
    · rfl

theorem State.doneStep_notDue {s : State} {n : Nat} (h : ∀ e, s.entry? n = some e → s.doneDue e = false) :
    s.doneStep n = s := by
  unfold State.doneStep
  split
  · rfl
  · next e he => exact if_neg (by rw [h e he]; exact Bool.false_ne_true)

/-- The entry that a place's event finds is the one at the place. -/
theorem State.entry_at_place {s : State} (hs : s.TrackerInv) {place : BitVec 3} {e : Entry}
    (h : s.entry? (s.numberAt place) = some e) : s.tracker[place.toNat]? = some e := by
  cases hp : s.tracker[place.toNat]? with
  | none => exact nomatch (State.entry?_empty hs hp).symm.trans h
  | some x => rw [← h, State.entry?_of_place hs hp]

theorem State.effectDue_iff (s : State) (e : Entry) :
    s.effectDue e = true ↔ e.phase = .posted ∧ e.effectSlot = s.now := by
  simp [State.effectDue, Entry.isPosted]

theorem State.dataDue_iff (s : State) (e : Entry) : s.dataDue e = true ↔ e.phase = .waiting ∧ e.dataSlot = s.now := by
  simp [State.dataDue]

theorem State.doneDue_slots {s : State} {e : Entry} (h : s.doneDue e = true) :
    e.phase = .streaming ∧ s.now = e.dataSlot + BitVec.ofNat 48 (e.len.beats / 2) ∧ e.beatsSeen = e.len.beats := by
  simp only [State.doneDue, Entry.isStreaming, Bool.and_eq_true, beq_iff_eq] at h
  obtain ⟨⟨phase, slots⟩, beats⟩ := h
  refine ⟨phase, ?_, beats⟩
  have behind : s.now - e.dataSlot = BitVec.ofNat 48 (e.len.beats / 2) := by
    have whole : BitVec.ofNat 48 (s.now - e.dataSlot).toNat = s.now - e.dataSlot := by
      rw [BitVec.ofNat_toNat, BitVec.setWidth_eq]
    exact whole.symm.trans (congrArg (BitVec.ofNat 48) slots)
  rw [← behind, BitVec.add_comm, BitVec.sub_add_cancel]

/-! ### Requests -/

/-- Every request of the frames has an effect. -/
theorem requestEffect_of_bytes (s : State) {c : Instr} (hb : (requestBytes c).isSome = true) (hwf : c.wf = true) :
    ∃ p, s.requestEffect c = some p := by
  have no : (none : Option (List Byte)).isSome = true → ∃ p, s.requestEffect c = some p := nofun
  cases c
  case unknownRequest code =>
    have undefined : ¬ (operandBytes code).isSome = true := by
      rw [Option.isNone_iff_eq_none.mp hwf]
      exact Bool.false_ne_true
    exact ⟨_, if_neg undefined⟩
  case writeItem g i v => exact ⟨_, if_pos (of_decide_eq_true hwf)⟩
  all_goals first
    | exact no hb
    | exact ⟨_, rfl⟩

theorem State.admits_other (s : State) {c w : Instr} (hw : s.port.waiting = some w)
    (h : requestForm w ≠ requestForm c) : s.admits c = false := by
  unfold State.admits
  rw [hw]
  exact beq_eq_false_iff_ne.mpr h

/-! ### Turns that are over, and nothing held -/

theorem State.takeTurn_over {s : State} (h : s.seq.state ≠ .armed ∨ s.turns.take = true) : s.takeTurn = s := by
  refine if_neg ?_
  rintro ⟨armed, free⟩
  obtain h | h := h
  · exact h armed
  · exact Bool.false_ne_true (free.symm.trans h)

theorem State.timeout_notDue {s : State} (h : s.seq.state ≠ .armed ∨ s.seq.expiry ≠ some s.now) : s.timeout = s := by
  refine if_neg ?_
  rintro ⟨armed, due⟩
  obtain h | h := h
  · exact h armed
  · exact h due

theorem State.unitTurn_over {s : State} (h : s.capture.writer = none ∨ s.turns.unit = true) : s.unitTurn = s := by
  unfold State.unitTurn
  split
  · rfl
  · next hu =>
    have free : s.capture.writer.isNone = true := Option.isNone_iff_eq_none.mpr (h.resolve_right hu)
    exact if_pos free

theorem State.endPulse_notDue {s : State} {p : PinNo} (h : (s.cue p).active = false ∨ (s.cue p).remaining ≠ 0) :
    s.endPulse p = s := by
  refine if_neg fun due => ?_
  simp only [Cue.endDue, Bool.and_eq_true, beq_iff_eq] at due
  obtain h | h := h
  · exact Bool.false_ne_true (h.symm.trans due.1)
  · exact h due.2

theorem State.forward_none {s : State} :
    (s.fwd.txCommand = none → s.forwardCommand = s) ∧ (s.fwd.txWrite = none → s.forwardWrite = s) ∧
      (s.fwd.txRead = none → s.forwardRead = s) := by
  refine ⟨fun h => ?_, fun h => ?_, fun h => ?_⟩
  · unfold State.forwardCommand
    rw [h]
  · unfold State.forwardWrite
    rw [h]
  · unfold State.forwardRead
    rw [h]

/-- Settles O35: each event's own condition, not met. -/
theorem eventsNotDueChangeNothing : Obligations.EventsNotDueChangeNothing := by
  unfold Obligations.EventsNotDueChangeNothing
  intro s hp hs
  refine ⟨fun h => ⟨fun c => ?_, fun code => ?_⟩, fun h => ?_, fun h => ?_, fun h d0 m0 d1 m1 => ?_, fun p h l => ?_,
    fun h => ?_, fun bytes h => ?_, fun c w hb hwf hw hne => ?_, fun h strobe d0 d1 => ?_,
    fun place => ⟨fun h => ?_, fun h => ?_, fun e he ha => ?_, fun h => ?_⟩, fun h => ?_, fun h => ?_, fun h => ?_,
    fun h => ?_, fun p h => ?_, fun h => ?_, fun h => ?_, fun h => ?_, fun h => ?_, fun hr hw => ?_⟩
  · exact (exec_arrival c s).trans (congrArg _ (if_pos (.inr h)))
  · exact congrArg Host.Outcome.next (if_pos (.inr h))
  · exact exec_unchanged (c := .memoryResetAssertion)
      (f := fun t => if t.fwd.mrst ∨ t.turns.mrst then t else t.assertReset) rfl hp (if_pos h)
  · exact exec_unchanged (c := .memoryResetRelease)
      (f := fun t => if t.fwd.mrst = false ∨ t.turns.mrst then t else t.releaseReset) rfl hp (if_pos h)
  · exact exec_unchanged (c := .writeBeatReceive d0 m0 d1 m1)
      (f := fun t => if t.turns.writeBeats ∨ t.directionFixed = true then t
        else t.takeBack.settleHolder.receiveWrite { data := d0, mask := m0 } { data := d1, mask := m1 })
      rfl hp (if_pos h)
  · exact exec_unchanged (c := .cueInputChange p l) (f := fun t => t.samplePin p l) rfl hp (if_pos h)
  · exact exec_unchanged (c := .frameDiscardedWaiting)
      (f := fun t => match t.port.waiting with
        | none => t
        | some c => { t with port := { frame := .turnaround, bits := [], waiting := some c, reply := .filler } })
      rfl hp (by simp only [h])
  · exact exec_unchanged (c := .frameAborted bytes)
      (f := fun t => if requestComplete bytes then t else { t with port := t.port.wholeFrame bytes }) rfl hp (if_pos h)
  · obtain ⟨_, effect⟩ := requestEffect_of_bytes s hb hwf
    exact exec_request_other effect (s.admits_other hw hne)
  · exact exec_unchanged (c := .readBeatReceive strobe d0 d1)
      (f := fun t => if t.turns.readBeats then t
        else if strobe ∨ t.turns.writeBeats then { t with turns := { t.turns with readBeats := true } }
        else t.receiveRead d0 d1) rfl hp (if_pos h)
  · refine exec_unchanged (c := .effectSlot place) (f := fun t => t.effectStep (t.numberAt place)) rfl hp
      (State.effectStep_notDue fun e he => Bool.eq_false_iff.mpr fun due => ?_)
    obtain ⟨phase, slot⟩ := (s.effectDue_iff e).mp due
    exact (h e (State.entry_at_place hs he)).elim (· phase) (· slot)
  · refine exec_unchanged (c := .dataSlot place) (f := fun t => t.dataStep (t.numberAt place)) rfl hp
      (State.dataStep_notDue fun e he => Bool.eq_false_iff.mpr fun due => ?_)
    obtain ⟨phase, slot⟩ := (s.dataDue_iff e).mp due
    exact (h e (State.entry_at_place hs he)).elim (· phase) (· slot)
  · exact exec_unchanged (c := .dataSlot place) (f := fun t => t.dataStep (t.numberAt place)) rfl hp
      (State.dataStep_awaiting he ha)
  · refine exec_unchanged (c := .retireDone place) (f := fun t => t.doneStep (t.numberAt place)) rfl hp
      (State.doneStep_notDue fun e he => Bool.eq_false_iff.mpr fun due => ?_)
    obtain ⟨phase, slot, beats⟩ := State.doneDue_slots due
    exact (h e (State.entry_at_place hs he)).elim (· phase) (·.elim (· slot) (· beats))
  · exact exec_unchanged (c := .occurrenceTake) (f := State.takeTurn) rfl hp (State.takeTurn_over h)
  · exact exec_unchanged (c := .stageTimeout) (f := State.timeout) rfl hp (State.timeout_notDue h)
  · exact exec_unchanged (c := .arbiterPick) (f := State.pickTurn) rfl hp (if_pos h)
  · exact exec_unchanged (c := .unitWrite) (f := State.unitTurn) rfl hp (State.unitTurn_over h)
  · exact exec_unchanged (c := .pulseEnd p) (f := fun t => t.endPulse p) rfl hp (State.endPulse_notDue h)
  · exact exec_unchanged (c := .intervalEvent) (f := State.intervalTurn) rfl hp (if_pos h)
  · exact exec_unchanged (c := .forwardCommand) (f := State.forwardCommand) rfl hp (State.forward_none.1 h)
  · exact exec_unchanged (c := .writeBeatForward) (f := State.forwardWrite) rfl hp (State.forward_none.2.1 h)
  · exact exec_unchanged (c := .readBeatForward) (f := State.forwardRead) rfl hp (State.forward_none.2.2 h)
  · refine exec_unchanged (c := .voidSlotResolve)
      (f := fun t => if (t.openHolder .read (t.now - 1)).isSome then t.resolveVoid .read
        else if (t.allData.openHolder .write t.now).isSome then t.allData.resolveVoid .write
        else t) rfl hp ((if_neg ?_).trans (if_neg ?_))
    · rw [hr]
      exact Bool.false_ne_true
    · rw [hw]
      exact Bool.false_ne_true

end Sys2Proof.Machine
end

section
/-! SUPPORT. Write beats driven on the D-side, their classification, and the close of an account that waits. -/
namespace Sys2Proof.Machine

/-! ### The count of the beats driven (R108) -/

/-- The account with the two beats of a slot classified. -/
def Account.classifyPair (a : Account) (on : Bool) (i : Nat) (g0 g1 : LaneSet) : Account :=
  (a.classify on i g0).classify on (i + 1) g1

/-- One if the beat has guard lanes. -/
def guardedCount (g : LaneSet) : Nat := if g = 0 then 0 else 1

theorem Account.classify_clear (a : Account) (on : Bool) (i : Nat) {g : LaneSet} (h : g = 0) : a.classify on i g = a :=
  if_pos h

theorem Account.classify_guarded (a : Account) (on : Bool) (i : Nat) {g : LaneSet} (h : g ≠ 0) :
    a.classify on i g =
      { a with
        forced := if on then a.forced + 1 else a.forced
        unprotected := if on then a.unprotected else a.unprotected + 1
        laneUnion := a.laneUnion ||| g
        firstPosition := a.firstPosition <|> some i
        lockedSeen := a.lockedSeen || a.lockedShare.getD i 0 != 0 } := by
  unfold Account.classify
  rw [if_neg h]
  cases a.firstPosition <;> exact rfl

theorem Account.classify_forced (a : Account) (on : Bool) (i : Nat) (g : LaneSet) :
    (a.classify on i g).forced = a.forced + if on = true then guardedCount g else 0 := by
  unfold guardedCount
  by_cases hg : g = 0
  · rw [a.classify_clear on i hg, if_pos hg, ite_self, Nat.add_zero]
  · rw [a.classify_guarded on i hg, if_neg hg]
    cases on <;> simp

theorem Account.classify_unprotected (a : Account) (on : Bool) (i : Nat) (g : LaneSet) :
    (a.classify on i g).unprotected = a.unprotected + if on = true then 0 else guardedCount g := by
  unfold guardedCount
  by_cases hg : g = 0
  · rw [a.classify_clear on i hg, if_pos hg, ite_self, Nat.add_zero]
  · rw [a.classify_guarded on i hg, if_neg hg]
    cases on <;> simp

theorem Account.classify_laneUnion (a : Account) (on : Bool) (i : Nat) (g : LaneSet) :
    (a.classify on i g).laneUnion = a.laneUnion ||| g := by
  by_cases hg : g = 0
  · rw [a.classify_clear on i hg, hg]
    exact BitVec.or_zero.symm
  · rw [a.classify_guarded on i hg]

theorem Account.classify_firstPosition (a : Account) (on : Bool) (i : Nat) (g : LaneSet) :
    (a.classify on i g).firstPosition = (a.firstPosition <|> if g = 0 then none else some i) := by
  by_cases hg : g = 0
  · rw [a.classify_clear on i hg, if_pos hg]
    simp
  · rw [a.classify_guarded on i hg, if_neg hg]

theorem Account.classify_lockedSeen (a : Account) (on : Bool) (i : Nat) (g : LaneSet) :
    (a.classify on i g).lockedSeen = true ↔ a.lockedSeen = true ∨ g ≠ 0 ∧ a.lockedShare.getD i 0 ≠ 0 := by
  by_cases hg : g = 0
  · rw [a.classify_clear on i hg]
    exact (or_iff_left fun h => h.1 hg).symm
  · rw [a.classify_guarded on i hg, Bool.or_eq_true, bne_iff_ne]
    exact or_congr_right (and_iff_right hg).symm

/-- The classification leaves what the effect slot decided. -/
theorem Account.classify_decided (a : Account) (on : Bool) (i : Nat) (g : LaneSet) :
    (a.classify on i g).lockedShare = a.lockedShare ∧ (a.classify on i g).contributing = a.contributing ∧
    (a.classify on i g).blind = a.blind := by
  by_cases hg : g = 0
  · rw [a.classify_clear on i hg]
    exact ⟨rfl, rfl, rfl⟩
  · rw [a.classify_guarded on i hg]
    exact ⟨rfl, rfl, rfl⟩

/-! ### The state with the beats driven and classified -/

/-- The entry after the classification, if it is the one the beats belong to. -/
def Entry.counted (on : Bool) (h : HeldWrite) (n i : Nat) (e : Entry) : Entry :=
  if e.number == n then e.classify on i h.first.guard h.second.guard else e

/-- What is driven, with the beats of entry `n` classified, before an account that waits closes. -/
def State.drivenWrite (s : State) (h : HeldWrite) (n i : Nat) : State :=
  { s with
    fwd :=
      { s.fwd with
        txWrite := none
        pins :=
          { s.fwd.pins with
            writeBeats := some (h.first.driven s.maskingOn, h.second.driven s.maskingOn) } }
    tracker := s.tracker.map (Entry.counted s.maskingOn h n i)
    waiting := s.waiting.map (Entry.counted s.maskingOn h n i) }

theorem State.forwardWrite_attributed (s : State) {h : HeldWrite} {n i : Nat} (ht : s.fwd.txWrite = some h)
    (hs : h.source = some (n, i)) : s.forwardWrite = (s.drivenWrite h n i).closeWaiting n := by
  unfold State.forwardWrite
  simp only [ht, hs]
  exact rfl

theorem Entry.counted_number (on : Bool) (h : HeldWrite) (n i : Nat) (e : Entry) :
    (e.counted on h n i).number = e.number := by
  unfold Entry.counted
  split <;> rfl

theorem Entry.counted_own {on : Bool} {h : HeldWrite} {n i : Nat} {e : Entry} {a : Account} (hn : e.number = n)
    (ha : e.account = some a) :
    e.counted on h n i = { e with account := some (a.classifyPair on i h.first.guard h.second.guard) } := by
  unfold Entry.counted
  rw [if_pos (beq_iff_eq.mpr hn), Entry.classify, ha]
  rfl

theorem Entry.counted_other {on : Bool} {h : HeldWrite} {n i : Nat} {e : Entry} (hn : e.number ≠ n) :
    e.counted on h n i = e :=
  if_neg (by simp [hn])

/-- The entry of number `n` in a list is found there with its beats classified. -/
theorem find?_counted {on : Bool} {h : HeldWrite} {n i : Nat} {l : List Entry} {e : Entry} {a : Account}
    (hf : l.find? (fun x => x.number == n) = some e) (ha : e.account = some a) :
    (l.map (Entry.counted on h n i)).find? (fun x => x.number == n) =
      some { e with account := some (a.classifyPair on i h.first.guard h.second.guard) } := by
  have number : e.number = n := beq_iff_eq.mp (List.find?_some (p := fun x : Entry => x.number == n) hf)
  have same : (fun x : Entry => x.number == n) ∘ Entry.counted on h n i = fun x => x.number == n :=
    funext fun x => congrArg (· == n) (x.counted_number on h n i)
  rw [List.find?_map, same, hf, Option.map_some, Entry.counted_own number ha]

theorem filter_counted (on : Bool) (h : HeldWrite) (n i : Nat) (l : List Entry) :
    (l.map (Entry.counted on h n i)).filter (fun x => x.number != n) = l.filter fun x => x.number ≠ n := by
  induction l with
  | nil => rfl
  | cons e l ih =>
    by_cases hn : e.number = n
    · rw [List.map_cons, List.filter_cons_of_neg (by simp [Entry.counted_number, hn]), ih,
        List.filter_cons_of_neg (by simp [hn])]
    · rw [List.map_cons, Entry.counted_other hn, List.filter_cons_of_pos (by simp [hn]), ih,
        List.filter_cons_of_pos (by simp [hn])]

/-- A beat of entry `n` is still to be forwarded: the slot received one. -/
def State.moreBeats (s : State) (n : Nat) : Bool :=
  match s.fwd.rxWrite with
  | some w => w.source.any fun x => x.1 == n
  | none => false

theorem State.drivenWrite_holdsBeatOf (s : State) (h : HeldWrite) (n i : Nat) :
    (s.drivenWrite h n i).fwd.holdsBeatOf n = s.moreBeats n := by
  unfold State.moreBeats Forwarding.holdsBeatOf State.drivenWrite
  cases s.fwd.rxWrite with
  | none => rfl
  | some w => cases hs : w.source <;> simp [hs]

/-! ### An account that waits (R111) -/

theorem State.closeWaiting_held (s : State) {n : Nat} (h : s.fwd.holdsBeatOf n = true) : s.closeWaiting n = s := by
  unfold State.closeWaiting
  split
  · rfl
  · exact if_pos h

/-- The account that waits leaves the list and closes; what its report offers is handed out. -/
theorem State.closeWaiting_closes (s : State) {n : Nat} {e : Entry}
    (he : s.waiting.find? (fun x => x.number == n) = some e) (h : s.fwd.holdsBeatOf n = false) :
    s.closeWaiting n =
      (State.closeAccount { s with waiting := s.waiting.filter fun x => x.number != n } e).1.handOut
        (State.closeAccount { s with waiting := s.waiting.filter fun x => x.number != n } e).2 := by
  unfold State.closeWaiting
  simp only [he, h]
  exact rfl

/-- The hand-out of a report is a report in the words of the statements (R113). -/
theorem State.Stands.reported {s t u : State} {reports : List GuardRec} {off : Offers} (hs : s.Stands t)
    (hl : s.GuardLatched t reports) (ho : Merges off.occurrences (reports.map fun _ => [.guardEvent]))
    (hr : Merges off.records (reports.map fun r => [.guard r])) (hu : u = t.handOut off) :
    s.Reported u reports [] [] := by
  subst hu
  refine ⟨hl.congr fun i hi => t.handOut_latch off (by omega) (by omega), ?_⟩
  rw [List.nil_append, List.append_nil]
  refine (t.handOut_handedOut off ho hr).congr hs.seq ?_ ?_ ?_
    (hs.latch 7 (by decide) (by decide) (by decide) (by decide)) rfl rfl rfl
  all_goals rw [hs.capture]

/-- A closing account makes the report of `reportOf`, or none (R111, R112). -/
theorem State.closeAccount_reported (s : State) {e : Entry} {a : Account} (ha : e.account = some a) :
    s.Reported ((s.closeAccount e).1.handOut (s.closeAccount e).2) (reportOf e a).toList [] [] := by
  by_cases hr : a.reports = true
  · rw [s.closeAccount_of_reports ha hr, guardRecord_of_reports hr]
    have latched := (State.GuardLatched.refl s).report (guardRecord e a)
    exact (s.report_stands _).reported latched (.single _) (.single _) rfl
  · have silent : s.closeAccount e = (s, Offers.none) := s.closeAccount_none fun b hb => by
      rw [Option.some.inj (hb.symm.trans ha)]
      exact hr
    rw [silent, reportOf_none hr]
    exact (State.Stands.refl s).reported (.refl s) .nil .nil rfl

theorem State.closeAccount_waiting (s : State) (e : Entry) : (s.closeAccount e).1.waiting = s.waiting := by
  rw [(s.closeAccount_step e).1]

theorem State.handOut_waiting (s : State) (o : Offers) : (s.handOut o).waiting = s.waiting := by
  rw [s.handOut_offerStep o]

/-- The account of entry `n` that waits, with its last beat forwarded (R111). -/
theorem State.drivenWrite_closes (s : State) {h : HeldWrite} {n i : Nat} {e : Entry} {a : Account}
    (he : s.waiting.find? (fun x => x.number == n) = some e) (ha : e.account = some a)
    (hm : s.moreBeats n = false) :
    ((s.drivenWrite h n i).closeWaiting n).waiting = s.waiting.filter (fun x => x.number ≠ n) ∧
    s.Reported ((s.drivenWrite h n i).closeWaiting n)
      (reportOf e (a.classifyPair s.maskingOn i h.first.guard h.second.guard)).toList [] [] := by
  have closes := (s.drivenWrite h n i).closeWaiting_closes (find?_counted he ha)
    ((s.drivenWrite_holdsBeatOf h n i).trans hm)
  rw [closes]
  refine ⟨?_, State.closeAccount_reported _ rfl⟩
  rw [State.handOut_waiting, State.closeAccount_waiting]
  exact filter_counted s.maskingOn h n i s.waiting

/-! ### The statement -/

theorem State.forwardWrite_shadow (s : State) : s.SameShadow s.forwardWrite :=
  (s.forwardWrite_changes (I := False) (K := (· ≠ .shadow)) ⟨nofun, nofun, nofun⟩ nofun nofun).sameShadow fun h => h rfl

theorem State.forwardWrite_now (s : State) : s.forwardWrite.now = s.now :=
  (s.forwardWrite_changes (I := False) (K := (· ≠ .clock)) ⟨nofun, nofun, nofun⟩ nofun nofun).now fun h => h rfl

theorem State.drives_mask (s : State) (x y : HeldBeat) :
    if s.modes.word2 = some { maskOn := true } then
      (s.drives x).mask = x.beat.mask ||| x.guard ∧ (s.drives y).mask = y.beat.mask ||| y.guard
    else (s.drives x).mask = x.beat.mask ∧ (s.drives y).mask = y.beat.mask := by
  unfold State.drives
  split <;> exact ⟨rfl, rfl⟩

/-- Settles O28: the beats are driven as `State.drives` says and counted into the account of their WRITE, which the
list or the accounts that wait hold; the account that waits closes unless the slot received another beat of it. -/
theorem writeBeatsAreForwardedAndCounted : Obligations.WriteBeatsAreForwardedAndCounted := by
  unfold Obligations.WriteBeatsAreForwardedAndCounted
  refine ⟨fun s h hp ht => ?_, fun s h n i e a hp ht hs ha place => ?_⟩
  · have fwd := s.forwardWrite_fwd
    rw [ht] at fwd
    refine ⟨s.forwardWrite, s.drives h.first, s.drives h.second, exec_up (f := State.forwardWrite) rfl hp, ?_⟩
    rw [fwd]
    exact ⟨rfl, rfl, rfl, rfl, rfl, rfl, rfl, s.drives_mask _ _, s.forwardWrite_shadow, s.forwardWrite_now⟩
  · intro g0 g1 count more
    have forwarded : exec .writeBeatForward s = .next ((s.drivenWrite h n i).closeWaiting n) := by
      rw [exec_up (f := State.forwardWrite) rfl hp, s.forwardWrite_attributed ht hs]
    have found (hn : s.entry? n = none) : s.waiting.find? (fun x => x.number == n) = some e := by
      rcases place with listed | ⟨-, waits⟩
      · exact absurd (hn.symm.trans listed) nofun
      · exact waits
    have decided := a.classify_decided s.maskingOn i g0
    have decided' := (a.classify s.maskingOn i g0).classify_decided s.maskingOn (i + 1) g1
    obtain ⟨share, contributing, blind⟩ := decided
    obtain ⟨share', contributing', blind'⟩ := decided'
    refine ⟨_, a.classifyPair s.maskingOn i g0 g1, forwarded, fun listed => ?_, fun hn hm => ?_, fun hn hm => ?_,
      ?_, ?_, ?_, ?_, ?_, share'.trans share, contributing'.trans contributing, blind'.trans blind⟩
    · unfold State.entry?
      rw [State.closeWaiting_tracker]
      exact find?_counted listed ha
    · rw [State.closeWaiting_held _ ((s.drivenWrite_holdsBeatOf h n i).trans hm)]
      exact ⟨find?_counted (found hn) ha, rfl, rfl, rfl⟩
    · exact s.drivenWrite_closes (found hn) ha hm
    · rw [Account.classifyPair, Account.classify_forced, Account.classify_forced, Nat.add_assoc]
      refine congrArg (a.forced + ·) ?_
      by_cases on : s.maskingOn = true
      · rw [if_pos on, if_pos on, if_pos (s.maskingOn_iff.mp on)]
        rfl
      · rw [if_neg on, if_neg on, if_neg (mt s.maskingOn_iff.mpr on)]
    · rw [Account.classifyPair, Account.classify_unprotected, Account.classify_unprotected, Nat.add_assoc]
      refine congrArg (a.unprotected + ·) ?_
      by_cases on : s.maskingOn = true
      · rw [if_pos on, if_pos on, if_pos (s.maskingOn_iff.mp on)]
      · rw [if_neg on, if_neg on, if_neg (mt s.maskingOn_iff.mpr on)]
        rfl
    · rw [Account.classifyPair, Account.classify_laneUnion, Account.classify_laneUnion]
    · rw [Account.classifyPair, Account.classify_firstPosition, Account.classify_firstPosition]
      cases a.firstPosition with
      | some p => simp
      | none =>
        by_cases h0 : g0 = 0
        · rw [if_pos h0, if_neg (not_not_intro h0), ite_not]
          rfl
        · rw [if_neg h0, if_pos h0]
          rfl
    · rw [Account.classifyPair, Account.classify_lockedSeen, Account.classify_lockedSeen, share, or_assoc]

end Sys2Proof.Machine
end
